-- ==== Sys2Proof/Word.lean ====
section
/-! DEFINITION. The unsigned integer types of 00_scope.md R12 and byte strings (R11). A byte is 8 bits (20_memory.md R50). -/

namespace Sys2Proof

/-- `u8` (R12). -/
abbrev Byte := BitVec 8
/-- `u16` (R12). -/
abbrev U16 := BitVec 16
/-- `u32` (R12). -/
abbrev U32 := BitVec 32
/-- `u64` (R12). -/
abbrev U64 := BitVec 64
/-- A byte string, byte 0 first on the wire (R11). -/
abbrev Bytes := List Byte

end Sys2Proof
end

