-- ==== Sys2Proof/Machine/Codec.lean ====
section
/-! DEFINITION. The Binary Codec: big-endian integers of 1, 2, 4 and 8 bytes (20_memory.md R51 to R55, 00_scope.md R13), and
the half-open slice `b[i..j)` of R11. Byte order is decided here and nowhere else. -/

namespace Sys2Proof.Machine

/-- `b[i..j)` (R11). -/
def slice (b : Bytes) (i j : Nat) : Bytes := (b.drop i).take (j - i)

/-- The unsigned integer a byte string stands for, most significant byte first (R51). -/
def beNat (b : Bytes) : Nat := b.foldl (fun acc x => acc * 256 + x.toNat) 0

/-- R52: the 1-byte string of a `u8`. -/
def enc8 (v : Byte) : Bytes := [v]

/-- R52: `b[0]` of a 1-byte string. -/
def be8 (b : Bytes) : Byte := BitVec.ofNat 8 (beNat b)

/-- R53: `[v[15:8], v[7:0]]`. -/
def enc16 (v : U16) : Bytes := [v.extractLsb' 8 8, v.extractLsb' 0 8]

/-- R53: `b[0]*256 + b[1]`, used only on 2-byte strings (R56, log 23). -/
def be16 (b : Bytes) : U16 := BitVec.ofNat 16 (beNat b)

/-- R54: the four bytes of a `u32`. -/
def enc32 (v : U32) : Bytes :=
  [v.extractLsb' 24 8, v.extractLsb' 16 8, v.extractLsb' 8 8, v.extractLsb' 0 8]

/-- R54: `b[0]*2^24 + b[1]*2^16 + b[2]*2^8 + b[3]`, used only on 4-byte strings (R56, log 23). -/
def be32 (b : Bytes) : U32 := BitVec.ofNat 32 (beNat b)

/-- R54: the eight bytes of a `u64`. -/
def enc64 (v : U64) : Bytes :=
  [v.extractLsb' 56 8, v.extractLsb' 48 8, v.extractLsb' 40 8, v.extractLsb' 32 8,
   v.extractLsb' 24 8, v.extractLsb' 16 8, v.extractLsb' 8 8, v.extractLsb' 0 8]

/-- R54: the sum of `b[i] * 2^(8*(7-i))`, used only on 8-byte strings (R56, log 23). -/
def be64 (b : Bytes) : U64 := BitVec.ofNat 64 (beNat b)

/-- R55: `enc32` of `v mod 2^32`. Two's complement is the spec's general knowledge (U2, log 20). Host software only. -/
def encI32 (v : Int) : Bytes := enc32 (BitVec.ofInt 32 v)

/-- R55: `u` if `u < 2^31`, else `u - 2^32` (U2, log 20). Host software only. -/
def beI32 (b : Bytes) : Int := (be32 b).toInt

end Sys2Proof.Machine
end

