-- ==== Sys2Proof/Machine/Errors.lean ====
section
/-! DEFINITION. The error causes of 60_exceptions.md R231 with their codes, the sub-reasons of 92_eei_decisions.md D28, and the
information each error records. -/

namespace Sys2Proof.Machine

/-- Why a frame is malformed: the failing step of R121 (R122). -/
inductive FrameReason where
  /-- Step 1: fewer than 14 bytes. -/
  | tooShort
  /-- Step 2: the header is not 0xAA55. -/
  | badHeader
  /-- Step 3: the byte count is not `14 + L`. -/
  | lengthMismatch
  /-- Step 5: the terminator is not 0x0D0A. -/
  | badTerminator
deriving DecidableEq, Repr

/-- The failing step of `parse_subpacket` (R146). -/
inductive SubpktCheck where
  /-- Step 1: fewer than 9 bytes. -/
  | tooShort
  /-- Step 2: the header is not 0xFAF5. -/
  | badHeader
  /-- Step 3: the status byte is none of the four. -/
  | badStatus
  /-- Step 4: the byte count is not `9 + M`. -/
  | lengthMismatch
deriving DecidableEq, Repr

/-- The number of the failing step, the `reason` of R162. -/
def SubpktCheck.number : SubpktCheck → Nat
  | .tooShort => 1
  | .badHeader => 2
  | .badStatus => 3
  | .lengthMismatch => 4

/-- Why a reassembly was aborted (R231, code 5). -/
inductive AbortReason where
  /-- R154, R156: the id is not `RSM_BASE +_32 RSM_COUNT`. -/
  | unexpectedId (expected got : U32)
  /-- R157: a `start` while assembling. -/
  | startWhileAssembling
  /-- R158: the append would exceed `RSM_BUF_MAX`. -/
  | overflow
  /-- R159: a `middle` or `end` while idle. -/
  | noReassembly
  /-- R196: the transport disconnected. -/
  | linkDown
deriving DecidableEq, Repr

/-- An error value with the information R231 says it records; carried by `RSP(Err(e))` and by `ERR(code, info)`. -/
inductive Error where
  | notConnected
  | malformedFrame (reason : FrameReason)
  | checksumMismatch (computed found : U16)
  | unknownCommand (code : U16)
  | reassemblyAborted (reason : AbortReason)
  | malformedSubPacket (step : SubpktCheck)
  | busy
  | payloadTooLong
  | badMtu
  | staleReply (respondedSerial : U32)
  | illegalOp (opcode : Byte)
deriving DecidableEq, Repr

/-- The names of the cause table (R231). -/
inductive Cause where
  | NotConnected
  | MalformedFrame
  | ChecksumMismatch
  | UnknownCommand
  | ReassemblyAborted
  | CorrelationTimeout
  /-- Host software only: the engine never raises it (R211, R231). -/
  | EncodingFailure
  | MalformedSubPacket
  | Busy
  | PayloadTooLong
  | BadMtu
  | StaleReply
  | IllegalOp
deriving DecidableEq, Repr

/-- The cause codes of R231. -/
def Cause.code : Cause → Nat
  | .NotConnected => 1
  | .MalformedFrame => 2
  | .ChecksumMismatch => 3
  | .UnknownCommand => 4
  | .ReassemblyAborted => 5
  | .CorrelationTimeout => 6
  | .EncodingFailure => 7
  | .MalformedSubPacket => 16
  | .Busy => 17
  | .PayloadTooLong => 18
  | .BadMtu => 19
  | .StaleReply => 20
  | .IllegalOp => 21

/-- The row of R231 an error belongs to. -/
def Error.cause : Error → Cause
  | .notConnected => .NotConnected
  | .malformedFrame _ => .MalformedFrame
  | .checksumMismatch _ _ => .ChecksumMismatch
  | .unknownCommand _ => .UnknownCommand
  | .reassemblyAborted _ => .ReassemblyAborted
  | .malformedSubPacket _ => .MalformedSubPacket
  | .busy => .Busy
  | .payloadTooLong => .PayloadTooLong
  | .badMtu => .BadMtu
  | .staleReply _ => .StaleReply
  | .illegalOp _ => .IllegalOp

/-- `code(e)` of `ERR(code(e), info(e))` (R161, R231). -/
def Error.code (e : Error) : Nat := e.cause.code

/-- The `outcome` of a `DONE` (R10). -/
inductive Completion where
  /-- The raw status byte of the response (R183). -/
  | reply (status : Byte)
  | timeout
  | linkDown
deriving DecidableEq, Repr

/-- The row of R231 a failing outcome belongs to: `Timeout` is code 6, `LinkDown` is code 1; a reply is no error. -/
def Completion.cause : Completion → Option Cause
  | .reply _ => none
  | .timeout => some .CorrelationTimeout
  | .linkDown => some .NotConnected

end Sys2Proof.Machine
end

