-- ==== Sys2Proof/Config.lean ====
section
/-! DEFINITION. The configuration record `Cfg` of 00_scope.md R8, what makes one well formed (70_reset_and_hazards.md R264),
the fixed constants of R8, the open constants, and the one free value of the model. -/

namespace Sys2Proof

/-- The configuration record of R8. The two sets of command codes are held as finite lists, so that a configuration can be
compared and written out; every set of 16-bit codes is such a list (log 2). -/
structure Cfg where
  /-- `CMD_SET`: the closed enumeration of recognised command codes (R78). -/
  cmdSet : List U16
  /-- `REPLY_BEARING`: the codes that carry a response payload (R78). -/
  replyBearing : List U16
  /-- `ST_NONE` (R76). -/
  stNone : Byte
  /-- `ST_START` (R76). -/
  stStart : Byte
  /-- `ST_MIDDLE` (R76). -/
  stMiddle : Byte
  /-- `ST_END` (R76). -/
  stEnd : Byte
  /-- `RS_SUCCESS` (R77). -/
  rsSuccess : Byte
  /-- `RS_INPROGRESS` (R77). -/
  rsInProgress : Byte
  /-- `RS_FAILED` (R77). -/
  rsFailed : Byte
  /-- `RS_CRCERROR` (R77). -/
  rsCrcError : Byte
  /-- `SERIAL_INIT`: the reset value of `SERIAL_NEXT` (R22). -/
  serialInit : U32
  /-- `PKTID_INIT`: the reset value of `PKTID_NEXT` (R23). -/
  pktidInit : U32
  /-- `N_PENDING`: the number of slots of the pending table (R29). -/
  nPending : Nat
  /-- `RSM_BUF_MAX`: the capacity of the reassembly buffer in bytes (R158). -/
  rsmBufMax : Nat
  /-- `RSM_END_CHECKS_ID`: whether the id of an `end` sub-packet is checked; fixed `true` (R8, R156, log 21). -/
  rsmEndChecksId : Bool
  /-- `TICK_PERIOD`: the real time between two `TICK`s; no rule reads it (R8, D32, log 4). -/
  tickPeriod : Nat
deriving DecidableEq, Repr

/-- `CMD_SET(cmd)` (R8). -/
def Cfg.isCommand (c : Cfg) (cmd : U16) : Bool := c.cmdSet.contains cmd

/-- `REPLY_BEARING(cmd)` (R8). -/
def Cfg.isReplyBearing (c : Cfg) (cmd : U16) : Bool := c.replyBearing.contains cmd

/-- What R264 requires of a configuration: `REPLY_BEARING` implies `CMD_SET`, four distinct sub-packet status bytes, four
distinct response status bytes, at least one slot; and `RSM_END_CHECKS_ID` at its fixed value (R8). -/
abbrev Cfg.wf (c : Cfg) : Prop :=
  (∀ cmd ∈ c.replyBearing, cmd ∈ c.cmdSet) ∧
  [c.stNone, c.stStart, c.stMiddle, c.stEnd].Nodup ∧
  [c.rsSuccess, c.rsInProgress, c.rsFailed, c.rsCrcError].Nodup ∧
  1 ≤ c.nPending ∧
  c.rsmEndChecksId = true

namespace Config

/-- `MTU_MAX`, fixed: 9 + 65535 (R8). -/
abbrev mtuMax : Nat := 65544
/-- `TIME_W`, fixed: the width of `TIME` (R8). -/
abbrev timeWidth : Nat := 64
/-- `TIMEOUT_W`, fixed: the width of a timeout operand (R8). -/
abbrev timeoutWidth : Nat := 32
/-- The 9-byte overhead of a sub-packet (R75). -/
abbrev subpktOverhead : Nat := 9
/-- The shortest frame (R72). -/
abbrev minFrame : Nat := 14
/-- The longest payload a `u16` length can express (R67). -/
abbrev maxPayload : Nat := 65535

/-- The device's command codes: OPEN, no default (R8, D5). Nothing in the model knows one (log 2). -/
opaque cmdSet : List U16

/-- Codes from which `REPLY_BEARING` is drawn: OPEN, no default (R8, D5, log 2). -/
opaque replyCandidates : List U16

/-- `TICK_PERIOD`: OPEN (R8, D32, log 4). -/
opaque tickPeriod : Nat

/-- FREE VALUE (log 11): the opcode byte that `ERR(IllegalOp, opcode)` carries when the message is empty and so has none
(30_encoding.md R88). Applied to `State.freeCount`, a fresh value each time. -/
opaque emptyMessageOpcode : Nat → Byte

/-- The configuration the engine is reset with: the spec's default where R8 proposes one (log 3), an opaque constant where it
proposes none (logs 2 and 4). `REPLY_BEARING` is cut down to `CMD_SET`, which it must imply (R264). No statement about a step
rests on these values: a step reads the configuration its state carries. -/
def cfg : Cfg where
  cmdSet := cmdSet
  replyBearing := replyCandidates.filter fun cmd => cmdSet.contains cmd
  stNone := 0x00#8
  stStart := 0x01#8
  stMiddle := 0x02#8
  stEnd := 0x03#8
  rsSuccess := 0x00#8
  rsInProgress := 0x01#8
  rsFailed := 0x02#8
  rsCrcError := 0x03#8
  serialInit := 0#32
  pktidInit := 0#32
  nPending := 1
  rsmBufMax := 65549
  rsmEndChecksId := true
  tickPeriod := tickPeriod

end Config
end Sys2Proof
end

