-- ==== Sys2Proof/Syntax.lean ====
section
/-! DEFINITION. The engine's operations and wire units, one constructor of `Instr` per row of spec/opcode_table.json, and the
wire values they are made of: sub-packets (30_encoding.md R75), frames (41_frame.md R115), and what a decoder is handed
(30_encoding.md R80, R86). -/

namespace Sys2Proof

/-- The `status` of a sub-packet (R75, R76): the whole frame, or the first, an inner, the last piece of one. -/
inductive SpStatus where
  | whole
  | start
  | middle
  | last
deriving DecidableEq, Repr

/-- A validated sub-packet: the result of `parse_subpacket` (R146). -/
structure SubPacket where
  status : SpStatus
  packetId : U32
  data : Bytes
deriving DecidableEq, Repr

/-- A validated frame (R115). Header and terminator are constants and are not kept. -/
structure Frame where
  serial : U32
  length : U16
  command : U16
  payload : Bytes
  checksum : U16
deriving DecidableEq, Repr

/-- The two fields of a response payload (R74, R126). -/
structure Response where
  respondedSerial : U32
  status : Byte
deriving DecidableEq, Repr

/-- The four named values of a response status byte (R77). The engine delivers the byte raw and never interprets it. -/
inductive ResponseStatus where
  | success
  | inProgress
  | failed
  | crcError
deriving DecidableEq, Repr

/-- A byte string and the decoder it arrives at. `message`: on a port (R86), the only way into the engine (20_memory.md R50).
`subpacket`: at the sub-packet parser, which is handed the operand of an `RX`; `frame`: at the frame parser, which is handed what
the reassembler emits (R80). The last two happen inside the step of an `RX` (log 6). -/
inductive Arrival where
  | message (b : Bytes)
  | subpacket (b : Bytes)
  | frame (b : Bytes)
deriving DecidableEq, Repr

/-- The operations of R86 and the wire units of R71, R74 and R75, in the order of spec/opcode_table.json. -/
inductive Instr where
  /-- `RESET` (R260). -/
  | reset
  /-- `CRC.CALC(b)` (R104). -/
  | crcCalc (b : Bytes)
  /-- `FRAME.BUILD(serial, cmd, p)` (R117). -/
  | frameBuild (serial : U32) (cmd : U16) (p : Bytes)
  /-- `FRAME.PARSE(b)` (R121). -/
  | frameParse (b : Bytes)
  /-- `FRAG(b, mtu, base)` (R142), operands in message order. -/
  | frag (mtu : U32) (base : U32) (b : Bytes)
  /-- `SEND(cmd, p, expectsReply, timeout)` (R172), operands in message order. -/
  | send (cmd : U16) (expectsReply : Bool) (timeout : U32) (p : Bytes)
  /-- `CANCEL(serial)` (R190). -/
  | cancel (serial : U32)
  /-- `CANCEL_ALL` (R191). -/
  | cancelAll
  /-- `SET_MTU(v)` (R194). -/
  | setMtu (v : U32)
  /-- `LINK_UP` (R195). -/
  | linkUp
  /-- `LINK_DOWN` (R196). -/
  | linkDown
  /-- `RX(b)` (R150). -/
  | rx (b : Bytes)
  /-- `TICK` (R186). -/
  | tick
  /-- `FRAME.CMD`: a frame at the frame parser (R71, R121, R161). `length` is the payload's; checksum and terminator are
  operands because R121 checks them only after the command code (log 7). -/
  | frameCmd (serial : U32) (command : U16) (payload : Bytes) (checksum : U16) (terminator : U16)
  /-- `FRAME.RESPONSE`: a frame with a 5-byte payload and a reply-bearing command at the frame parser (R74, R180). -/
  | frameResponse (serial : U32) (command : U16) (respondedSerial : U32) (status : Byte) (checksum : U16) (terminator : U16)
  /-- `SP.NONE`: a sub-packet that holds a whole frame (R151, R160). -/
  | spNone (packetId : U32) (data : Bytes)
  /-- `SP.START`: the first sub-packet of a frame (R152, R157). -/
  | spStart (packetId : U32) (data : Bytes)
  /-- `SP.MIDDLE`: an inner sub-packet (R153, R154, R159). -/
  | spMiddle (packetId : U32) (data : Bytes)
  /-- `SP.END`: the last sub-packet (R155, R156, R159). -/
  | spEnd (packetId : U32) (data : Bytes)
deriving DecidableEq, Repr

end Sys2Proof
end

