-- ==== Sys2Proof/WellFormed.lean ====
section
/-! DEFINITION. Which terms of `Instr` an encoding can express: a byte string's length fits the `n(4)` of its message
(30_encoding.md R86, R87), a payload or a chunk fits the `u16` length of its unit (R71, R75), and a 5-byte payload under a
reply-bearing command is a `FRAME.RESPONSE`, no other frame is (R74, R180). -/

namespace Sys2Proof

/-- A byte string whose length the 4-byte operand `n` expresses (R87). -/
def fitsMessage (b : Bytes) : Bool := decide (b.length < 2 ^ 32)

/-- A payload or a chunk whose length a `u16` expresses (R67). -/
def fitsUnit (b : Bytes) : Bool := decide (b.length < 2 ^ 16)

/-- The terms some encoding stands for, under a configuration. -/
def Instr.wellFormed (c : Cfg) : Instr → Bool
  | .reset => true
  | .crcCalc b => fitsMessage b
  | .frameBuild _ _ p => fitsMessage p
  | .frameParse b => fitsMessage b
  | .frag _ _ b => fitsMessage b
  | .send _ _ _ p => fitsMessage p
  | .cancel _ => true
  | .cancelAll => true
  | .setMtu _ => true
  | .linkUp => true
  | .linkDown => true
  | .rx b => fitsMessage b
  | .tick => true
  | .frameCmd _ cmd p _ _ => fitsUnit p && !(p.length == 5 && c.isReplyBearing cmd)
  | .frameResponse _ cmd _ _ _ _ => c.isReplyBearing cmd
  | .spNone _ d => fitsUnit d
  | .spStart _ d => fitsUnit d
  | .spMiddle _ d => fitsUnit d
  | .spEnd _ d => fitsUnit d

end Sys2Proof
end

