-- ==== Sys2Proof/Decode.lean ====
section
/-! DEFINITION. Decoding and encoding: operation-port messages (30_encoding.md R86 to R88), sub-packets (R75,
42_fragment_reassembly.md R146) and frames (R71, 41_frame.md R121 steps 1 to 3). Decoding is total and rejects by name. -/

namespace Sys2Proof
open Machine

/-- Why an arrival is no instruction. -/
inductive Reject where
  /-- R88: a message with an unknown opcode byte or that is not well-formed; no opcode byte if the message is empty. -/
  | illegalOp (opcode : Option Byte)
  /-- R146: the failing step of the sub-packet parser. -/
  | subpacket (step : SubpktCheck)
  /-- R121 steps 1 to 3: the unit has not the form of a frame. -/
  | frame (reason : FrameReason)
deriving DecidableEq, Repr

/-! ### Operation-port messages -/

/-- The operands `fixed bytes | n(4) | n bytes` of R86, when the total length is exact (R87): the fixed part and the byte
string. -/
def counted (fixed : Nat) (body : Bytes) : Option (Bytes × Bytes) :=
  if body.length < fixed + 4 then none
  else if body.length = fixed + 4 + (be32 (slice body fixed (fixed + 4))).toNat then
    some (body.take fixed, body.drop (fixed + 4))
  else none

/-- An operation with no operands (R86). -/
def bare (i : Instr) (body : Bytes) : Option Instr := if body.isEmpty then some i else none

/-- An operation with one 4-byte operand (R86). -/
def word32 (f : U32 → Instr) (body : Bytes) : Option Instr :=
  if body.length = 4 then some (f (be32 body)) else none

/-- The operands of `SEND` (R86): `cmd(2) | flags(1) | timeout(4)` and the payload; bits 7 to 1 of `flags` must be 0, bit 0 is
`expectsReply` (R87). -/
def sendOperands (head p : Bytes) : Option Instr :=
  let flags := be8 (slice head 2 3)
  if flags &&& 0xFE#8 = 0#8 then
    some (.send (be16 (slice head 0 2)) (flags.getLsbD 0) (be32 (slice head 3 7)) p)
  else none

/-- The instruction of an operation-port message, none if it is illegal (R86 to R88). -/
def decodeMessage : Bytes → Option Instr
  | [] => none
  | op :: body =>
    match op with
    | 0x01#8 => bare .reset body
    | 0x10#8 => (counted 0 body).map fun x => .crcCalc x.2
    | 0x11#8 => (counted 6 body).map fun x => .frameBuild (be32 (slice x.1 0 4)) (be16 (slice x.1 4 6)) x.2
    | 0x12#8 => (counted 0 body).map fun x => .frameParse x.2
    | 0x13#8 => (counted 8 body).map fun x => .frag (be32 (slice x.1 0 4)) (be32 (slice x.1 4 8)) x.2
    | 0x20#8 => (counted 7 body).bind fun x => sendOperands x.1 x.2
    | 0x21#8 => word32 .cancel body
    | 0x22#8 => bare .cancelAll body
    | 0x30#8 => word32 .setMtu body
    | 0x31#8 => bare .linkUp body
    | 0x32#8 => bare .linkDown body
    | 0x33#8 => (counted 0 body).map fun x => .rx x.2
    | 0x40#8 => bare .tick body
    | _ => none

/-! ### Sub-packets -/

/-- The status byte a configuration gives a status (R76). -/
def Cfg.statusByte (c : Cfg) : SpStatus → Byte
  | .whole => c.stNone
  | .start => c.stStart
  | .middle => c.stMiddle
  | .last => c.stEnd

/-- The status a byte stands for (R76); in a configuration whose four bytes are not distinct, the first that fits (log 22). -/
def Cfg.statusOf (c : Cfg) (x : Byte) : Option SpStatus :=
  if x = c.stNone then some .whole
  else if x = c.stStart then some .start
  else if x = c.stMiddle then some .middle
  else if x = c.stEnd then some .last
  else none

/-- `parse_subpacket` (R146): the four checks, in order. -/
def parseSubpkt (c : Cfg) (b : Bytes) : Except SubpktCheck SubPacket :=
  if b.length < 9 then .error .tooShort
  else if be16 (slice b 0 2) ≠ 0xFAF5#16 then .error .badHeader
  else
    match c.statusOf (be8 (slice b 2 3)) with
    | none => .error .badStatus
    | some st =>
      let m := (be16 (slice b 7 9)).toNat
      if b.length ≠ 9 + m then .error .lengthMismatch
      else .ok { status := st, packetId := be32 (slice b 3 7), data := slice b 9 (9 + m) }

/-- `subpkt(st, id, d)` of R142: the wire form of a sub-packet (R75). -/
def subpkt (c : Cfg) (st : SpStatus) (id : U32) (d : Bytes) : Bytes :=
  enc16 0xFAF5#16 ++ enc8 (c.statusByte st) ++ enc32 id ++ enc16 (BitVec.ofNat 16 d.length) ++ d

/-- The instruction a validated sub-packet is. -/
def SubPacket.instr (sp : SubPacket) : Instr :=
  match sp.status with
  | .whole => .spNone sp.packetId sp.data
  | .start => .spStart sp.packetId sp.data
  | .middle => .spMiddle sp.packetId sp.data
  | .last => .spEnd sp.packetId sp.data

/-! ### Frames -/

/-- The wire form of a frame (R71) with any checksum and any terminator. -/
def frameBytes (serial : U32) (cmd : U16) (p : Bytes) (checksum terminator : U16) : Bytes :=
  enc16 0xAA55#16 ++ enc32 serial ++ enc16 (BitVec.ofNat 16 p.length) ++ enc16 cmd ++ p ++
    enc16 checksum ++ enc16 terminator

/-- The payload of a response frame (R74). -/
def responsePayload (respondedSerial : U32) (status : Byte) : Bytes := enc32 respondedSerial ++ enc8 status

/-- The instruction of a unit at the frame parser: steps 1 to 3 of R121. A frame whose payload is 5 bytes and whose command is
reply-bearing is a `FRAME.RESPONSE`, any other a `FRAME.CMD` (R74, R180, log 8). -/
def decodeFrame (c : Cfg) (b : Bytes) : Except FrameReason Instr :=
  if b.length < 14 then .error .tooShort
  else if be16 (slice b 0 2) ≠ 0xAA55#16 then .error .badHeader
  else
    let l := (be16 (slice b 6 8)).toNat
    if b.length ≠ 14 + l then .error .lengthMismatch
    else
      let serial := be32 (slice b 2 6)
      let cmd := be16 (slice b 8 10)
      let checksum := be16 (slice b (10 + l) (12 + l))
      let terminator := be16 (slice b (12 + l) (14 + l))
      if l = 5 ∧ c.isReplyBearing cmd = true then
        .ok (.frameResponse serial cmd (be32 (slice b 10 14)) (be8 (slice b 14 15)) checksum terminator)
      else .ok (.frameCmd serial cmd (slice b 10 (10 + l)) checksum terminator)

/-! ### The three decoders -/

/-- The instruction that arrived, or why it is none. -/
def decode (c : Cfg) : Arrival → Except Reject Instr
  | .message m =>
    match decodeMessage m with
    | some i => .ok i
    | none => .error (.illegalOp m.head?)
  | .subpacket b =>
    match parseSubpkt c b with
    | .ok sp => .ok sp.instr
    | .error k => .error (.subpacket k)
  | .frame b =>
    match decodeFrame c b with
    | .ok i => .ok i
    | .error r => .error (.frame r)

/-- The 4-byte operand `n` (R87). -/
def encLen (b : Bytes) : Bytes := enc32 (BitVec.ofNat 32 b.length)

/-- The port message of `RX(b)` (R86). -/
def rxMessage (b : Bytes) : Bytes := 0x33#8 :: (encLen b ++ b)

/-- The arrival that stands for a well-formed instruction, written from R86, R75 and R71. -/
def encode (c : Cfg) : Instr → Arrival
  | .reset => .message [0x01#8]
  | .crcCalc b => .message (0x10#8 :: (encLen b ++ b))
  | .frameBuild serial cmd p => .message (0x11#8 :: (enc32 serial ++ enc16 cmd ++ encLen p ++ p))
  | .frameParse b => .message (0x12#8 :: (encLen b ++ b))
  | .frag mtu base b => .message (0x13#8 :: (enc32 mtu ++ enc32 base ++ encLen b ++ b))
  | .send cmd expectsReply timeout p =>
    .message (0x20#8 :: (enc16 cmd ++ enc8 (if expectsReply then 1#8 else 0#8) ++ enc32 timeout ++ encLen p ++ p))
  | .cancel serial => .message (0x21#8 :: enc32 serial)
  | .cancelAll => .message [0x22#8]
  | .setMtu v => .message (0x30#8 :: enc32 v)
  | .linkUp => .message [0x31#8]
  | .linkDown => .message [0x32#8]
  | .rx b => .message (rxMessage b)
  | .tick => .message [0x40#8]
  | .frameCmd serial cmd p checksum terminator => .frame (frameBytes serial cmd p checksum terminator)
  | .frameResponse serial cmd responded status checksum terminator =>
    .frame (frameBytes serial cmd (responsePayload responded status) checksum terminator)
  | .spNone id d => .subpacket (subpkt c .whole id d)
  | .spStart id d => .subpacket (subpkt c .start id d)
  | .spMiddle id d => .subpacket (subpkt c .middle id d)
  | .spEnd id d => .subpacket (subpkt c .last id d)

/-- The port message that brings a byte string to its decoder, ports being the only way in (20_memory.md R50): a sub-packet is the
operand of an `RX` (R80), a frame is the data of a `none` sub-packet (42_fragment_reassembly.md R151), whose id is not examined. -/
def portMessage (c : Cfg) : Arrival → Bytes
  | .message m => m
  | .subpacket b => rxMessage b
  | .frame b => rxMessage (subpkt c .whole 0#32 b)

/-! ### The table's words (log 9) -/

/-- The first `n` bytes of a number whose first byte is its least significant: the table's numbering of port messages, whose
word is the byte (R86). -/
def bytesOfWord : Nat → Nat → Bytes
  | 0, _ => []
  | n + 1, w => BitVec.ofNat 8 w :: bytesOfWord n (w / 256)

/-- The first `n` 16-bit words of a number, first word least significant, each stored high byte first (R51): the table's
numbering of wire units, whose fixed word is the 16-bit header. -/
def unitOfWord : Nat → Nat → Bytes
  | 0, _ => []
  | n + 1, w => enc16 (BitVec.ofNat 16 w) ++ unitOfWord n (w / 65536)

/-- A byte string followed by zero bytes up to a length. -/
def zeroPad (n : Nat) (b : Bytes) : Bytes := b ++ List.replicate (n - b.length) 0#8

/-- The length of the message of an opcode whose byte string, if it has one, is empty (R86). -/
def emptyLength : Bytes → Nat
  | [] => 0
  | op :: _ =>
    match op with
    | 0x10#8 => 5
    | 0x11#8 => 11
    | 0x12#8 => 5
    | 0x13#8 => 13
    | 0x20#8 => 12
    | 0x21#8 => 5
    | 0x30#8 => 5
    | 0x33#8 => 5
    | _ => 1

/-- What arrives when the first `nbits` bits of an instruction are `w`, in the table's numbering, and every later bit is 0. A
first 16-bit word 0xFAF5 or 0xAA55 is the header of a unit; anything else is a port message. -/
def tableArrival (nbits w : Nat) : Arrival :=
  if nbits ≥ 16 ∧ w % 65536 = 0xFAF5 then .subpacket (zeroPad 9 (unitOfWord (nbits / 16) w))
  else if nbits ≥ 16 ∧ w % 65536 = 0xAA55 then .frame (zeroPad 14 (unitOfWord (nbits / 16) w))
  else
    let b := bytesOfWord (nbits / 8) w
    .message (zeroPad (emptyLength b) b)

/-- The instruction the decoder reads from the table's word, under the configuration of reset. -/
def decodeTableWord (nbits w : Nat) : Option Instr :=
  match decode Config.cfg (tableArrival nbits w) with
  | .ok i => some i
  | .error _ => none

end Sys2Proof
end

