-- ==== Sys2Proof/Machine/Fragmenting.lean ====
section
/-! DEFINITION. Cutting a byte string into sub-packets (42_fragment_reassembly.md R140 to R145). -/

namespace Sys2Proof.Machine

/-- `ceil(a/b)` (R12): the least `q` with `q*b >= a`, for `b >= 1`. -/
def ceilDiv (a b : Nat) : Nat := (a + (b - 1)) / b

/-- `chunkSize(mtu) = mtu - 9`, for `10 <= mtu <= MTU_MAX` (R141). -/
def chunkSize (mtu : Nat) : Nat := mtu - 9

/-- The tag of sub-packet `i` of `k` (R142, R143). -/
def fragmentTag (k i : Nat) : SpStatus :=
  if i = 0 then .start else if i = k - 1 then .last else .middle

/-- Chunk `i` of a byte string cut by `cs` (R145). -/
def chunk (b : Bytes) (cs i : Nat) : Bytes := slice b (i * cs) (min ((i + 1) * cs) b.length)

/-- `fragment` (R142), for `10 <= mtu <= MTU_MAX`. -/
def fragment (c : Cfg) (b : Bytes) (mtu : Nat) (base : U32) : List Bytes :=
  let cs := chunkSize mtu
  if b.length ≤ cs then [subpkt c .whole base b]
  else
    let k := ceilDiv b.length cs
    (List.range k).map fun i => subpkt c (fragmentTag k i) (base + BitVec.ofNat 32 i) (chunk b cs i)

end Sys2Proof.Machine
end

