-- ==== Sys2Proof/Machine/Crc.lean ====
section
/-! DEFINITION. The CRC-16 generator (40_crc16.md R100 to R105): its table by construction, its update step, `crc16`, and the
bit-serial form a hardware generator may use instead. -/

namespace Sys2Proof.Machine

/-- One shift of the table construction (R101): the polynomial 0xA001 goes in whenever a 1 is shifted out. The construction is
the spec's general knowledge (U1, log 19). -/
def crcShift (c : U16) : U16 := if c.getLsbD 0 then (c >>> 1) ^^^ 0xA001#16 else c >>> 1

/-- `n` shifts. -/
def crcShifts : Nat → U16 → U16
  | 0, c => c
  | n + 1, c => crcShifts n (crcShift c)

/-- `TABLE[i]`, entry `i` of the constant table (R33, R101): `MemRead(TABLE, i)` of R14. -/
def crcTable (i : Byte) : U16 := crcShifts 8 (i.zeroExtend 16)

/-- `crc_update` (R102). -/
def crcUpdate (crc : U16) (byte : Byte) : U16 :=
  (crc >>> 8) ^^^ crcTable (((crc ^^^ byte.zeroExtend 16) &&& 0xFF#16).truncate 8)

/-- `crc16` (R103, R104): seed 0, bytes in order, no finalisation. -/
def crc16 (b : Bytes) : U16 := b.foldl crcUpdate 0#16

/-- One byte of the bit-serial form (R105). -/
def crcSerialUpdate (crc : U16) (byte : Byte) : U16 := crcShifts 8 (crc ^^^ byte.zeroExtend 16)

/-- The bit-serial form of the checksum (R105). -/
def crc16Serial (b : Bytes) : U16 := b.foldl crcSerialUpdate 0#16

end Sys2Proof.Machine
end

