-- ==== Sys2Proof/Machine/Framing.lean ====
section
/-! DEFINITION. The frame unit (41_frame.md): `serialize` (R116), `parse_frame` (R121), `as_response` (R126), and the names of
the response status bytes (30_encoding.md R77). -/

namespace Sys2Proof.Machine

/-- The first `10 + len(p)` bytes of a frame, the span of its checksum (R71, R116). -/
def frameBody (serial : U32) (cmd : U16) (p : Bytes) : Bytes :=
  enc16 0xAA55#16 ++ enc32 serial ++ enc16 (BitVec.ofNat 16 p.length) ++ enc16 cmd ++ p

/-- `serialize(serial, cmd, p)` (R116), defined for `len(p) <= 65535`. -/
def serialize (serial : U32) (cmd : U16) (p : Bytes) : Bytes :=
  let body := frameBody serial cmd p
  body ++ enc16 (crc16 body) ++ enc16 0x0D0A#16

/-- `parse_frame` (R121): the six steps in order, the first failure being the result. -/
def parseFrame (c : Cfg) (b : Bytes) : Except Error Frame :=
  if b.length < 14 then .error (.malformedFrame .tooShort)
  else if be16 (slice b 0 2) ≠ 0xAA55#16 then .error (.malformedFrame .badHeader)
  else
    let l := (be16 (slice b 6 8)).toNat
    if b.length ≠ 14 + l then .error (.malformedFrame .lengthMismatch)
    else
      let cmd := be16 (slice b 8 10)
      if c.isCommand cmd = false then .error (.unknownCommand cmd)
      else if be16 (slice b (12 + l) (14 + l)) ≠ 0x0D0A#16 then .error (.malformedFrame .badTerminator)
      else
        let computed := crc16 (slice b 0 (10 + l))
        let found := be16 (slice b (10 + l) (12 + l))
        if computed ≠ found then .error (.checksumMismatch computed found)
        else .ok { serial := be32 (slice b 2 6), length := be16 (slice b 6 8), command := cmd,
                   payload := slice b 10 (10 + l), checksum := found }

/-- `as_response` (R126): defined only on a frame whose payload is exactly 5 bytes. -/
def asResponse (f : Frame) : Option Response :=
  if f.length = 5#16 then
    some { respondedSerial := be32 (slice f.payload 0 4), status := be8 (slice f.payload 4 5) }
  else none

/-- The name of a response status byte (R77), none for a byte outside the four. For readers of `DONE`: no operation of the
engine interprets the byte. -/
def responseStatus (c : Cfg) (x : Byte) : Option ResponseStatus :=
  if x = c.rsSuccess then some .success
  else if x = c.rsInProgress then some .inProgress
  else if x = c.rsFailed then some .failed
  else if x = c.rsCrcError then some .crcError
  else none

end Sys2Proof.Machine
end

