-- ==== Sys2Proof/Machine/Registers.lean ====
section
/-! DEFINITION. The complete architectural state of the engine (10_state.md R20) and its reset values (R39). -/

namespace Sys2Proof.Machine

/-- The two states of the reassembler (R24). -/
inductive RsmState where
  | idle
  | assembling
deriving DecidableEq, Repr

/-- One slot of the pending-correlation table (R29). With `valid = false` the other fields are not observable. -/
structure Slot where
  valid : Bool
  serial : U32
  issuedAt : U64
  timeout : U32
deriving DecidableEq, Repr

/-- A slot after reset: not valid (R39). The other fields are unobservable; the model holds 0 there (log 13). -/
def freeSlot : Slot := { valid := false, serial := 0#32, issuedAt := 0#64, timeout := 0#32 }

/-- The registers of R20, and nothing else. -/
structure Registers where
  /-- `SERIAL_NEXT` (R22). -/
  serialNext : U32
  /-- `PKTID_NEXT` (R23). -/
  pktidNext : U32
  /-- `MTU`, a natural from 0 to `MTU_MAX` (R31, log 16). -/
  mtu : Fin (Config.mtuMax + 1)
  /-- `LINK` (R32). -/
  link : Bool
  /-- `TIME` (R30). -/
  time : BitVec Config.timeWidth
  /-- `PEND` (R29). -/
  pend : List Slot
  /-- `RSM_STATE` (R24). -/
  rsmState : RsmState
  /-- `RSM_BASE` (R25). -/
  rsmBase : U32
  /-- `RSM_COUNT` (R26). -/
  rsmCount : U32
  /-- `RSM_BUF`: the chunk at each sequence position, position 0 first (R27, log 15). -/
  rsmBuf : List Bytes
deriving DecidableEq, Repr

/-- `RSM_LEN = len(concat(RSM_BUF))` (R27). -/
def Registers.rsmLen (r : Registers) : Nat := r.rsmBuf.flatten.length

/-- The reset values of R39. -/
def resetRegisters (c : Cfg) : Registers where
  serialNext := c.serialInit
  pktidNext := c.pktidInit
  mtu := 0
  link := false
  time := 0#64
  pend := List.replicate c.nPending freeSlot
  rsmState := .idle
  rsmBase := 0#32
  rsmCount := 0#32
  rsmBuf := []

end Sys2Proof.Machine
end

