-- ==== Sys2Proof/Machine/State.lean ====
section
/-! DEFINITION. The machine's state as plain data: what the spec's `step : Cfg -> State -> Event -> State x List Output`
(00_scope.md R9) takes and gives, in one record, since the host's form of a step maps a state to a state (log 1). -/

namespace Sys2Proof.Machine

/-- The value of `RSP(v)` (10_state.md R41). -/
inductive Rsp where
  /-- `RESET`. -/
  | ack
  /-- `CRC.CALC`. -/
  | crc (v : U16)
  /-- `FRAME.BUILD`. -/
  | bytes (b : Bytes)
  /-- `FRAME.PARSE`: `Ok(frame)`. -/
  | frame (f : Frame)
  /-- `FRAG`: the sub-packets in order. -/
  | packets (l : List Bytes)
  /-- `SEND`: `Sent(serial)`. -/
  | sent (serial : U32)
  /-- `CANCEL`, `CANCEL_ALL`: the number of registrations removed. -/
  | cancelled (n : Nat)
  /-- `Err(e)`. -/
  | err (e : Error)
deriving DecidableEq, Repr

/-- The outputs of R10. -/
inductive Output where
  /-- `RSP(v)` (R41). -/
  | rsp (v : Rsp)
  /-- `TX(b)`: one sub-packet written to the transport (R42). -/
  | tx (b : Bytes)
  /-- `APP(serial, cmd, p)` (R44). -/
  | app (serial : U32) (cmd : U16) (p : Bytes)
  /-- `DONE(serial, outcome)` (R44). -/
  | done (serial : U32) (outcome : Completion)
  /-- `ERR(code, info)`: the code is `Error.code`, the info stands in the error (R45). -/
  | err (e : Error)
deriving DecidableEq, Repr

/-- Everything a step reads and writes. -/
structure State where
  /-- The configuration record, the parameter `Cfg` of a step. NOT state of the engine (R36, R64): no operation writes it. It
  stands here so that every statement quantifies over it (R18, log 1). -/
  cfg : Cfg
  /-- The engine's architectural state (R20). -/
  regs : Registers
  /-- The port messages the environment presents, next first: the only way in (R9, R86, 20_memory.md R50, log 5). -/
  inbox : List Bytes
  /-- The outputs emitted so far, in emission order (R10, log 10). -/
  out : List Output
  /-- How many free values have been drawn: the MODEL's own (log 11). -/
  freeCount : Nat
deriving DecidableEq, Repr

/-- What stops the machine: NOTHING. "After any of them the engine is ready for the next event" (R230): every error of the
engine is a result, a notice or an outcome, so this type has no constructor. Safe: no behaviour is cut off. -/
inductive Fault where
deriving DecidableEq, Repr

/-- An instruction without a meaning in the model. -/
inductive Refusal where
  /-- Raised by `exec` for a constructor it has no meaning for; at present no arm raises it. Safe: the model stops. -/
  | notModelled (mnemonic : String)
deriving DecidableEq, Repr

/-- Power-up and reset (70_reset_and_hazards.md R261): every register at its value of R39, under the configuration
`Config.cfg`; nothing presented, nothing emitted (logs 3, 5, 10, 11). -/
def State.reset : State where
  cfg := Config.cfg
  regs := resetRegisters Config.cfg
  inbox := []
  out := []
  freeCount := 0

end Sys2Proof.Machine
end

