-- ==== Sys2Proof/Machine/Ops.lean ====
section
/-! DEFINITION. The operations the meanings share: emitting outputs, raising an error (00_scope.md R14, 60_exceptions.md R236),
clearing and aborting a reassembly, and the pending-correlation table (10_state.md R29, 43_dispatch_correlation.md R183). Each
takes the registers and gives the registers and the outputs of R9. -/

namespace Sys2Proof.Machine

/-- What an operation leaves: the registers and the outputs it emitted, in order (R9). -/
structure Effect where
  regs : Registers
  outs : List Output
deriving DecidableEq, Repr

/-- No output. -/
def silent (r : Registers) : Effect := ⟨r, []⟩

/-- `emit RSP(v)`. -/
def respond (v : Rsp) (r : Registers) : Effect := ⟨r, [.rsp v]⟩

/-- `emit RSP(Err(e)); stop`: a refused host operation changes no register (R236). -/
def refuse (e : Error) (r : Registers) : Effect := respond (.err e) r

/-- "TRAP ENTRY" (R236): `raise E(info)` of R14 emits `ERR(code(E), info)`. No register is saved, no mode changes, control goes
nowhere; the state change a rule names is the caller's. There is no return (R237). -/
def raise (e : Error) (r : Registers) : Effect := ⟨r, [.err e]⟩

/-- One operation after another: the outputs in order. -/
def Effect.andThen (e : Effect) (f : Registers → Effect) : Effect :=
  ⟨(f e.regs).regs, e.outs ++ (f e.regs).outs⟩

/-- The step that an effect makes of a state: the registers, and the outputs appended. -/
def State.after (s : State) (e : Effect) : Host.Outcome State Fault Refusal :=
  .next { s with regs := e.regs, out := s.out ++ e.outs }

/-! ### The reassembler's registers -/

/-- `RSM_STATE <- Idle; RSM_BASE <- 0; RSM_COUNT <- 0; RSM_BUF <- []`. -/
def clearReassembly (r : Registers) : Registers :=
  { r with rsmState := .idle, rsmBase := 0#32, rsmCount := 0#32, rsmBuf := [] }

/-- Clear the reassembler and `raise ReassemblyAborted(reason)` (R154, R158, R231). -/
def abort (reason : AbortReason) (r : Registers) : Effect :=
  raise (.reassemblyAborted reason) (clearReassembly r)

/-- The id the next sub-packet must carry: `RSM_BASE +_32 RSM_COUNT` (R153). -/
def expectedId (r : Registers) : U32 := r.rsmBase + r.rsmCount

/-- `MemWrite(RSM_BUF, RSM_COUNT, d)` of R153: the chunk goes to the next sequence position (log 15), and the count rises by
1 modulo 2^32. -/
def appendChunk (d : Bytes) (r : Registers) : Registers :=
  { r with rsmBuf := r.rsmBuf ++ [d], rsmCount := r.rsmCount + 1#32 }

/-! ### The pending-correlation table -/

/-- A registration of this serial stands in the slot. -/
def Slot.holds (serial : U32) (p : Slot) : Bool := p.valid && p.serial == serial

/-- `PEND[j].valid <- false`: the other fields stay (log 13). -/
def Slot.release (p : Slot) : Slot := { p with valid := false }

/-- Release the lowest slot that satisfies a test (log 14). -/
def releaseFirst (q : Slot → Bool) : List Slot → List Slot
  | [] => []
  | p :: ps => if q p then p.release :: ps else p :: releaseFirst q ps

/-- Release every slot that satisfies a test. -/
def releaseAll (q : Slot → Bool) (ps : List Slot) : List Slot := ps.map fun p => if q p then p.release else p

/-- Register in the lowest slot that is not valid (R172 step 10). -/
def register (new : Slot) : List Slot → List Slot
  | [] => []
  | p :: ps => if p.valid then p :: register new ps else new :: ps

/-- `resolve(j, outcome)` (R183) for the slot `j` that holds a serial: the slot is freed and `DONE` emitted. -/
def resolve (serial : U32) (o : Completion) (r : Registers) : Effect :=
  ⟨{ r with pend := releaseFirst (Slot.holds serial) r.pend }, [.done serial o]⟩

/-- `resolve(j, outcome)` (R183) for every slot `j` that satisfies a test, in ascending order (R186, R187, R196). -/
def resolveAll (q : Slot → Bool) (o : Completion) (r : Registers) : Effect :=
  ⟨{ r with pend := releaseAll q r.pend }, (r.pend.filter q).map fun p => .done p.serial o⟩

end Sys2Proof.Machine
end

