-- ==== Sys2Proof/Machine/Dispatcher.lean ====
section
/-! DEFINITION. The command dispatcher (43_dispatch_correlation.md): `SEND`, `TICK`, `CANCEL`, `CANCEL_ALL` and the transport's
status events. -/

namespace Sys2Proof.Machine

/-! ### Sending -/

/-- R172 step 5: a reply-expecting command cannot register, for want of a free slot or because its serial is pending. -/
def cannotRegister (r : Registers) : Bool :=
  r.pend.all (·.valid) || r.pend.any (Slot.holds r.serialNext)

/-- The five checks of R172, in order: the error of the first that fails. -/
def sendCheck (c : Cfg) (cmd : U16) (expectsReply : Bool) (p : Bytes) (r : Registers) : Option Error :=
  if r.link = false then some .notConnected
  else if c.isCommand cmd = false then some (.unknownCommand cmd)
  else if p.length > 65535 then some .payloadTooLong
  else if r.mtu.val < 10 then some .badMtu
  else if expectsReply = true ∧ cannotRegister r = true then some .busy
  else none

/-- The sub-packets a send writes (R172 steps 7 and 8). -/
def sendPackets (c : Cfg) (cmd : U16) (p : Bytes) (r : Registers) : List Bytes :=
  fragment c (serialize r.serialNext cmd p) r.mtu.val r.pktidNext

/-- The registration a send makes (R172 step 10). -/
def sendSlot (timeout : U32) (r : Registers) : Slot :=
  { valid := true, serial := r.serialNext, issuedAt := r.time, timeout := timeout }

/-- Steps 6 to 11 of R172. -/
def issue (c : Cfg) (cmd : U16) (expectsReply : Bool) (timeout : U32) (p : Bytes) (r : Registers) : Effect where
  regs := { r with
    serialNext := r.serialNext + 1#32
    pktidNext := r.pktidNext + BitVec.ofNat 32 (sendPackets c cmd p r).length
    pend := if expectsReply then register (sendSlot timeout r) r.pend else r.pend }
  outs := (sendPackets c cmd p r).map .tx ++ [.rsp (.sent r.serialNext)]

/-- `SEND` (R172). -/
def send (c : Cfg) (cmd : U16) (expectsReply : Bool) (timeout : U32) (p : Bytes) (r : Registers) : Effect :=
  match sendCheck c cmd expectsReply p r with
  | some e => refuse e r
  | none => issue c cmd expectsReply timeout p r

/-! ### Time -/

/-- A registration is due: `(TIME -_64 issuedAt) >= zext_64(timeout)` (R186). -/
def expired (now : U64) (p : Slot) : Bool :=
  p.valid && decide (p.timeout.zeroExtend 64 ≤ now - p.issuedAt)

/-- `TICK` (R186): time advances, then every due registration is resolved. -/
def tickEffect (r : Registers) : Effect :=
  resolveAll (expired (r.time + 1#64)) .timeout { r with time := r.time + 1#64 }

/-! ### Cancellation -/

/-- `CANCEL(serial)` (R190): no `DONE`. -/
def cancelOne (serial : U32) (r : Registers) : Effect :=
  respond (.cancelled (if r.pend.any (Slot.holds serial) then 1 else 0))
    { r with pend := releaseFirst (Slot.holds serial) r.pend }

/-- `CANCEL_ALL` (R191): no `DONE`. -/
def cancelEvery (r : Registers) : Effect :=
  respond (.cancelled (r.pend.countP (·.valid))) { r with pend := releaseAll (·.valid) r.pend }

/-! ### Transport status -/

/-- `min(v, MTU_MAX)` as a value of the register `MTU` (R194). -/
def clampMtu (v : U32) : Fin (Config.mtuMax + 1) := ⟨min v.toNat Config.mtuMax, by omega⟩

/-- `LINK_DOWN` (R196): link and MTU cleared, every registration resolved, a reassembly in progress aborted. -/
def disconnect (r : Registers) : Effect :=
  (resolveAll (·.valid) .linkDown { r with link := false, mtu := 0 }).andThen fun r' =>
    match r'.rsmState with
    | .idle => silent r'
    | .assembling => abort .linkDown r'

/-! ### Meanings -/

/-- `SEND` (R172). -/
def execSend (cmd : U16) (expectsReply : Bool) (timeout : U32) (p : Bytes) (s : State) :
    Host.Outcome State Fault Refusal :=
  s.after (send s.cfg cmd expectsReply timeout p s.regs)

/-- `CANCEL(serial)` (R190). -/
def execCancel (serial : U32) (s : State) : Host.Outcome State Fault Refusal := s.after (cancelOne serial s.regs)

/-- `CANCEL_ALL` (R191). -/
def execCancelAll (s : State) : Host.Outcome State Fault Refusal := s.after (cancelEvery s.regs)

/-- `SET_MTU(v)` (R194). -/
def execSetMtu (v : U32) (s : State) : Host.Outcome State Fault Refusal :=
  s.after (silent { s.regs with mtu := clampMtu v })

/-- `LINK_UP` (R195). -/
def execLinkUp (s : State) : Host.Outcome State Fault Refusal := s.after (silent { s.regs with link := true })

/-- `LINK_DOWN` (R196). -/
def execLinkDown (s : State) : Host.Outcome State Fault Refusal := s.after (disconnect s.regs)

/-- `TICK` (R186). -/
def execTick (s : State) : Host.Outcome State Fault Refusal := s.after (tickEffect s.regs)

end Sys2Proof.Machine
end

