-- ==== Sys2Proof/Machine/PureUnits.lean ====
section
/-! DEFINITION. The four pure operations (20_memory.md R58): `CRC.CALC`, `FRAME.BUILD`, `FRAME.PARSE`, `FRAG`. They read the
configuration and their operands and change no register. -/

namespace Sys2Proof.Machine

/-- R117: the two checks of the builder, in order. -/
def buildFrame (c : Cfg) (serial : U32) (cmd : U16) (p : Bytes) : Rsp :=
  if c.isCommand cmd = false then .err (.unknownCommand cmd)
  else if p.length > 65535 then .err .payloadTooLong
  else .bytes (serialize serial cmd p)

/-- R121 as a port operation: `RSP(parse_frame(b))`. -/
def frameResult (c : Cfg) (b : Bytes) : Rsp :=
  match parseFrame c b with
  | .ok f => .frame f
  | .error e => .err e

/-- R142: `BadMtu` outside 10 to `MTU_MAX`, else the sub-packets. -/
def fragResult (c : Cfg) (mtu : Nat) (base : U32) (b : Bytes) : Rsp :=
  if mtu < 10 ∨ mtu > Config.mtuMax then .err .badMtu
  else .packets (fragment c b mtu base)

/-- `CRC.CALC(b)` (R104). -/
def execCrcCalc (b : Bytes) (s : State) : Host.Outcome State Fault Refusal :=
  s.after (respond (.crc (crc16 b)) s.regs)

/-- `FRAME.BUILD(serial, cmd, p)` (R117). -/
def execFrameBuild (serial : U32) (cmd : U16) (p : Bytes) (s : State) : Host.Outcome State Fault Refusal :=
  s.after (respond (buildFrame s.cfg serial cmd p) s.regs)

/-- `FRAME.PARSE(b)` (R121). -/
def execFrameParse (b : Bytes) (s : State) : Host.Outcome State Fault Refusal :=
  s.after (respond (frameResult s.cfg b) s.regs)

/-- `FRAG(b, mtu, base)` (R142). -/
def execFrag (mtu base : U32) (b : Bytes) (s : State) : Host.Outcome State Fault Refusal :=
  s.after (respond (fragResult s.cfg mtu.toNat base b) s.regs)

end Sys2Proof.Machine
end

