-- ==== Sys2Proof/Machine/Receive.lean ====
section
/-! DEFINITION. The receive path: routing a parsed frame (43_dispatch_correlation.md R180 to R184), delivering a frame's bytes
(42_fragment_reassembly.md R161), the reassembler (R150 to R163), and the meanings of `RX` and of the six wire units. -/

namespace Sys2Proof.Machine

/-! ### Frames -/

/-- Some slot is valid and holds the serial. -/
def isPending (serial : U32) (r : Registers) : Bool := r.pend.any (Slot.holds serial)

/-- A frame taken as a response (R180): it resolves the registration of its embedded serial, or is stale and dropped (R182). -/
def takeResponse (x : Response) (r : Registers) : Effect :=
  if isPending x.respondedSerial r then resolve x.respondedSerial (.reply x.status) r
  else raise (.staleReply x.respondedSerial) r

/-- `APP(serial, command, payload)` (R184). -/
def forward (f : Frame) (r : Registers) : Effect := ⟨r, [.app f.serial f.command f.payload]⟩

/-- `route(frame)` (R180): a 5-byte payload under a reply-bearing command is a response, anything else is forwarded. -/
def route (c : Cfg) (f : Frame) (r : Registers) : Effect :=
  match (if c.isReplyBearing f.command then asResponse f else none) with
  | some x => takeResponse x r
  | none => forward f r

/-- `deliver f` (R161): parse the bytes and route the frame; on failure the frame is dropped with an `ERR` notice. -/
def deliver (c : Cfg) (b : Bytes) (r : Registers) : Effect :=
  match parseFrame c b with
  | .ok f => route c f r
  | .error e => raise e r

/-! ### Sub-packets -/

/-- A `none` sub-packet: delivered at once; a reassembly in progress is not touched (R151, R160). -/
def rxWhole (c : Cfg) (data : Bytes) (r : Registers) : Effect := deliver c data r

/-- R152: open a reassembly with its first chunk, unless the chunk alone exceeds the buffer (R158). -/
def openReassembly (c : Cfg) (id : U32) (data : Bytes) (r : Registers) : Effect :=
  if data.length > c.rsmBufMax then abort .overflow r
  else silent { r with rsmBase := id, rsmBuf := [data], rsmCount := 1#32, rsmState := .assembling }

/-- A `start` sub-packet (R152); while assembling, the reassembly in progress is aborted first (R157, log 18). -/
def rxStart (c : Cfg) (id : U32) (data : Bytes) (r : Registers) : Effect :=
  match r.rsmState with
  | .idle => openReassembly c id data r
  | .assembling => (abort .startWhileAssembling r).andThen (openReassembly c id data)

/-- A `middle` sub-packet: R159 when idle; when assembling, the id check (R154) comes before the capacity check (R158), and then
the chunk is appended (R153). -/
def rxMiddle (c : Cfg) (id : U32) (data : Bytes) (r : Registers) : Effect :=
  match r.rsmState with
  | .idle => raise (.reassemblyAborted .noReassembly) r
  | .assembling =>
    if id ≠ expectedId r then abort (.unexpectedId (expectedId r) id) r
    else if r.rsmLen + data.length > c.rsmBufMax then abort .overflow r
    else silent (appendChunk data r)

/-- An `end` sub-packet: R159 when idle; when assembling, the id check (R156, if `RSM_END_CHECKS_ID`, log 21), the capacity
check (R158), and then the state is cleared and the concatenation delivered (R155). -/
def rxLast (c : Cfg) (id : U32) (data : Bytes) (r : Registers) : Effect :=
  match r.rsmState with
  | .idle => raise (.reassemblyAborted .noReassembly) r
  | .assembling =>
    if c.rsmEndChecksId = true ∧ id ≠ expectedId r then abort (.unexpectedId (expectedId r) id) r
    else if r.rsmLen + data.length > c.rsmBufMax then abort .overflow r
    else deliver c (r.rsmBuf.flatten ++ data) (clearReassembly r)

/-- The state machine over the status of a validated sub-packet (R150, R163). -/
def reassemble (c : Cfg) (sp : SubPacket) (r : Registers) : Effect :=
  match sp.status with
  | .whole => rxWhole c sp.data r
  | .start => rxStart c sp.packetId sp.data r
  | .middle => rxMiddle c sp.packetId sp.data r
  | .last => rxLast c sp.packetId sp.data r

/-- R162: the unit is discarded, the reassembler reset, and the failing step reported. -/
def malformedUnit (k : SubpktCheck) (r : Registers) : Effect :=
  raise (.malformedSubPacket k) (clearReassembly r)

/-- `RX(b)` (R150), whatever `LINK` is. -/
def receive (c : Cfg) (b : Bytes) (r : Registers) : Effect :=
  match parseSubpkt c b with
  | .ok sp => reassemble c sp r
  | .error k => malformedUnit k r

/-! ### Meanings -/

/-- `RX(b)` (R150). -/
def execRx (b : Bytes) (s : State) : Host.Outcome State Fault Refusal := s.after (receive s.cfg b s.regs)

/-- `FRAME.CMD`: the frame parser is handed the frame (R121, R161, R180, log 7). -/
def execFrameCmd (serial : U32) (cmd : U16) (p : Bytes) (checksum terminator : U16) (s : State) :
    Host.Outcome State Fault Refusal :=
  s.after (deliver s.cfg (frameBytes serial cmd p checksum terminator) s.regs)

/-- `FRAME.RESPONSE`: the frame parser is handed a frame with the 5-byte payload of R74 (R121, R126, R180, log 7). -/
def execFrameResponse (serial : U32) (cmd : U16) (responded : U32) (status : Byte) (checksum terminator : U16) (s : State) :
    Host.Outcome State Fault Refusal :=
  s.after (deliver s.cfg (frameBytes serial cmd (responsePayload responded status) checksum terminator) s.regs)

/-- `SP.NONE` (R151, R160). The id is not examined. -/
def execSpNone (_id : U32) (data : Bytes) (s : State) : Host.Outcome State Fault Refusal :=
  s.after (rxWhole s.cfg data s.regs)

/-- `SP.START` (R152, R157, R158). -/
def execSpStart (id : U32) (data : Bytes) (s : State) : Host.Outcome State Fault Refusal :=
  s.after (rxStart s.cfg id data s.regs)

/-- `SP.MIDDLE` (R153, R154, R158, R159). -/
def execSpMiddle (id : U32) (data : Bytes) (s : State) : Host.Outcome State Fault Refusal :=
  s.after (rxMiddle s.cfg id data s.regs)

/-- `SP.END` (R155, R156, R158, R159). -/
def execSpEnd (id : U32) (data : Bytes) (s : State) : Host.Outcome State Fault Refusal :=
  s.after (rxLast s.cfg id data s.regs)

end Sys2Proof.Machine
end

