-- ==== Sys2Proof/Machine/System.lean ====
section
/-! DEFINITION. `RESET` (70_reset_and_hazards.md R260), taking the next message (00_scope.md R9), and what becomes of a message
that is no operation (30_encoding.md R88). -/

namespace Sys2Proof.Machine

/-- `RESET` (R260): every register at its reset value, `RSP(Ack)`; registrations and a reassembly are dropped silently. What the
environment presents and what was emitted are not registers and stay. -/
def execReset (s : State) : Host.Outcome State Fault Refusal := s.after (respond .ack (resetRegisters s.cfg))

/-- The next message and the state without it; none when nothing is presented. -/
def fetch (s : State) : Option (Bytes × State) :=
  match s.inbox with
  | [] => none
  | m :: rest => some (m, { s with inbox := rest })

/-- R88: `RSP(Err(IllegalOp))` and `ERR(IllegalOp, opcode)`, no register changes. -/
def illegalOp (opcode : Byte) (r : Registers) : Effect :=
  (refuse (.illegalOp opcode) r).andThen (raise (.illegalOp opcode))

/-- A message that is no operation is refused (R88); an empty one has no opcode byte to report, so a free value stands for it
(log 11). -/
def reject (m : Bytes) (s : State) : Host.Outcome State Fault Refusal :=
  match m with
  | op :: _ => s.after (illegalOp op s.regs)
  | [] => State.after { s with freeCount := s.freeCount + 1 } (illegalOp (Config.emptyMessageOpcode s.freeCount) s.regs)

/-- `s` with the message that brings an arrival to its decoder put before everything else that is presented. -/
def present (a : Arrival) (s : State) : State := { s with inbox := portMessage s.cfg a :: s.inbox }

end Sys2Proof.Machine
end

