-- ==== Sys2Proof/Machine/Dispatch.lean ====
section
/-! DEFINITION. One arm per constructor of `Instr`, in the order of spec/opcode_table.json. -/

namespace Sys2Proof.Machine

def exec (i : Instr) (s : State) : Host.Outcome State Fault Refusal :=
  match i with
  | .reset => Sys2Proof.Machine.execReset s
  | .crcCalc b => Sys2Proof.Machine.execCrcCalc b s
  | .frameBuild serial cmd p => Sys2Proof.Machine.execFrameBuild serial cmd p s
  | .frameParse b => Sys2Proof.Machine.execFrameParse b s
  | .frag mtu base b => Sys2Proof.Machine.execFrag mtu base b s
  | .send cmd expectsReply timeout p => Sys2Proof.Machine.execSend cmd expectsReply timeout p s
  | .cancel serial => Sys2Proof.Machine.execCancel serial s
  | .cancelAll => Sys2Proof.Machine.execCancelAll s
  | .setMtu v => Sys2Proof.Machine.execSetMtu v s
  | .linkUp => Sys2Proof.Machine.execLinkUp s
  | .linkDown => Sys2Proof.Machine.execLinkDown s
  | .rx b => Sys2Proof.Machine.execRx b s
  | .tick => Sys2Proof.Machine.execTick s
  | .frameCmd serial command payload checksum terminator => Sys2Proof.Machine.execFrameCmd serial command payload checksum terminator s
  | .frameResponse serial command respondedSerial status checksum terminator => Sys2Proof.Machine.execFrameResponse serial command respondedSerial status checksum terminator s
  | .spNone packetId data => Sys2Proof.Machine.execSpNone packetId data s
  | .spStart packetId data => Sys2Proof.Machine.execSpStart packetId data s
  | .spMiddle packetId data => Sys2Proof.Machine.execSpMiddle packetId data s
  | .spEnd packetId data => Sys2Proof.Machine.execSpEnd packetId data s

end Sys2Proof.Machine
end

