-- ==== Sys2Proof/Machine/Step.lean ====
section
/-! DEFINITION. One step: take the next message, decode it, run it (00_scope.md R9, 30_encoding.md R86). -/

namespace Sys2Proof.Machine

/-- One step of the engine. When nothing is presented it is idle and keeps all state (60_exceptions.md R250). -/
def step (s : State) : Host.Outcome State Fault Refusal :=
  match fetch s with
  | none => .next s
  | some (m, t) =>
    match decodeMessage m with
    | some i => exec i t
    | none => reject m t

/-- The table's word stored where `step` fetches: its message presented before everything else. The word of a wire unit comes in
as an `RX` that carries it, whose step runs it (logs 5, 6 and 9). -/
def State.withFetchWord (s : State) (nbits w : Nat) : State := present (tableArrival nbits w) s

end Sys2Proof.Machine
end

