-- ==== Sys2Proof/Machine/Trace.lean ====
section
/-! DEFINITION. Traces: lists of events run one after another, and the pseudo-operations of the trace syntax with their
expansions (30_encoding.md R90, R91). They are not operations of the engine. -/

namespace Sys2Proof.Machine

/-- The events of a trace, in order; it stops where a step does. -/
def runEvents : List Instr → State → Host.Outcome State Fault Refusal
  | [], s => .next s
  | i :: rest, s =>
    match exec i s with
    | .next t => runEvents rest t
    | .fault f => .fault f
    | .refused f => .refused f

/-- `TICKS n` (R91). -/
def ticks (n : Nat) : List Instr := List.replicate n .tick

/-- `RXF mtu=m base=k f=[...]` (R91): one `RX` for each sub-packet of `FRAG(f, m, k)`. Where `FRAG` answers `BadMtu` there is no
list to expand to, and R91 says nothing: no expansion, the model's choice (log 27). -/
def rxf (c : Cfg) (mtu : Nat) (base : U32) (f : Bytes) : Option (List Instr) :=
  match fragResult c mtu base f with
  | .packets l => some (l.map .rx)
  | _ => none

/-- `RXFRAME serial=s cmd=c p=[...]` (R91): `RXF` of `FRAME.BUILD(s, c, p)` with `mtu = MTU`, `base = 0`. Where `FRAME.BUILD`
refuses (R117) there is no frame, and R91 says nothing: no expansion, the model's choice (log 27). -/
def rxFrame (s : State) (serial : U32) (cmd : U16) (p : Bytes) : Option (List Instr) :=
  match buildFrame s.cfg serial cmd p with
  | .bytes f => rxf s.cfg s.regs.mtu.val 0#32 f
  | _ => none

end Sys2Proof.Machine
end

