-- ==== Sys2Proof/Safety.lean ====
section
/-! DEFINITION. What every reachable state satisfies (the invariants the spec states of the engine's registers), and the words
the statements are written in: who presents an event, what an output carries, a changed bit. -/

namespace Sys2Proof.Machine

/-! ### Invariants -/

/-- R28, R26: idle means cleared; assembling means at least one chunk, the count being the number of chunks modulo 2^32. -/
abbrev Registers.reassemblerOk (r : Registers) : Prop :=
  (r.rsmState = .idle → r.rsmBase = 0#32 ∧ r.rsmCount = 0#32 ∧ r.rsmBuf = []) ∧
  (r.rsmState = .assembling → r.rsmBuf ≠ [] ∧ r.rsmCount = BitVec.ofNat 32 r.rsmBuf.length)

/-- The serials of the valid slots, in slot order. -/
def pendingSerials (ps : List Slot) : List U32 := (ps.filter (·.valid)).map (·.serial)

/-- R29, R175, R196: the table has `N_PENDING` slots, no two valid slots hold one serial, and a slot is valid only while
`LINK = 1`. -/
abbrev Registers.pendOk (c : Cfg) (r : Registers) : Prop :=
  r.pend.length = c.nPending ∧ (pendingSerials r.pend).Nodup ∧ (r.link = false → ∀ p ∈ r.pend, p.valid = false)

/-- The engine's invariant under a configuration: R28, `RSM_LEN <= RSM_BUF_MAX` (R27), and the pending table. -/
abbrev Registers.Inv (c : Cfg) (r : Registers) : Prop :=
  r.reassemblerOk ∧ r.rsmLen ≤ c.rsmBufMax ∧ r.pendOk c

/-- The invariant of a state. -/
abbrev State.Inv (s : State) : Prop := s.regs.Inv s.cfg

/-! ### Events -/

/-- The events the host presents (R9). -/
def hostEvent : Instr → Bool
  | .reset | .crcCalc _ | .frameBuild _ _ _ | .frameParse _ | .frag _ _ _ | .send _ _ _ _ | .cancel _ | .cancelAll => true
  | .setMtu _ | .linkUp | .linkDown | .rx _ | .tick | .frameCmd _ _ _ _ _ | .frameResponse _ _ _ _ _ _ | .spNone _ _
  | .spStart _ _ | .spMiddle _ _ | .spEnd _ _ => false

/-- The arrival of a unit: `RX`, and the wire units themselves (R80). -/
def unitEvent : Instr → Bool
  | .rx _ | .frameCmd _ _ _ _ _ | .frameResponse _ _ _ _ _ _ | .spNone _ _ | .spStart _ _ | .spMiddle _ _
  | .spEnd _ _ => true
  | .reset | .crcCalc _ | .frameBuild _ _ _ | .frameParse _ | .frag _ _ _ | .send _ _ _ _ | .cancel _ | .cancelAll
  | .setMtu _ | .linkUp | .linkDown | .tick => false

/-- `SEND` would be accepted: none of the five checks of R172 fails. -/
abbrev State.canSend (s : State) (cmd : U16) (expectsReply : Bool) (p : Bytes) : Prop :=
  s.regs.link = true ∧ s.cfg.isCommand cmd = true ∧ p.length ≤ 65535 ∧ 10 ≤ s.regs.mtu.val ∧
    (expectsReply = true →
      (∃ q ∈ s.regs.pend, q.valid = false) ∧ ∀ q ∈ s.regs.pend, q.valid = true → q.serial ≠ s.regs.serialNext)

/-! ### Outputs -/

/-- `RSP(v)`. -/
def Output.isRsp : Output → Bool
  | .rsp _ => true
  | .tx _ | .app _ _ _ | .done _ _ | .err _ => false

/-- `TX(b)`. -/
def Output.isTx : Output → Bool
  | .tx _ => true
  | .rsp _ | .app _ _ _ | .done _ _ | .err _ => false

/-- The bytes of `TX(b)`. -/
def Output.txBytes? : Output → Option Bytes
  | .tx b => some b
  | .rsp _ | .app _ _ _ | .done _ _ | .err _ => none

/-- `RSP(Err(e))`. -/
def Output.isRefusal : Output → Bool
  | .rsp (.err _) => true
  | _ => false

/-- The serial of `RSP(Sent(serial))`. -/
def Output.sentSerial? : Output → Option U32
  | .rsp (.sent x) => some x
  | _ => none

/-- `DONE(serial, _)` for this serial. -/
def Output.isDoneOf (x : U32) : Output → Bool
  | .done y _ => y == x
  | _ => false

/-! ### Bytes -/

/-- Bit `j` of byte `k` changed. -/
def flipBit (b : Bytes) (k j : Nat) : Bytes := b.modify k fun x => x ^^^ (1#8 <<< j)

end Sys2Proof.Machine
end

