-- ==== Sys2Proof/Certificates/Slice0/Obligations.lean ====
section
/-! DEFINITION. The statements about the model, each formalising numbered rules of spec/ or following from them. -/

open Sys2Proof Sys2Proof.Machine

/-! ### Decoding and stepping -/

/-- Decode and encode agree for every instruction and every value of every operand an encoding admits: the port messages
(R86, R87), the frames (R71, R74) and the sub-packets (R75, R76). -/
def Obligations.DecodeOfEncodeIsInstruction : Prop :=
  ∀ (c : Cfg) (i : Instr), c.wf → i.wellFormed c = true → decode c (encode c i) = .ok i

/-- The other direction: what decodes is a well-formed instruction and the arrival is its one encoding, so no two arrivals
decode to one instruction. -/
def Obligations.DecodedArrivalIsItsEncoding : Prop :=
  ∀ (c : Cfg) (a : Arrival) (i : Instr), decode c a = .ok i → i.wellFormed c = true ∧ encode c i = a

/-- Words written out from the spec: `CANCEL serial=7` and `SEND` of program P3 (R86), the frame F0 (R71), a `start`
sub-packet (R75). The status bytes and the command set are those of the configuration given. -/
def Obligations.SpecWordsDecode : Prop :=
  ∀ c : Cfg, c.wf → c.stStart = 0x01#8 →
    decode c (.message [0x21#8, 0x00#8, 0x00#8, 0x00#8, 0x07#8]) = .ok (.cancel 7#32) ∧
    decode c (.message [0x20#8, 0x01#8, 0x01#8, 0x01#8, 0x00#8, 0x00#8, 0x00#8, 0x02#8, 0x00#8, 0x00#8, 0x00#8, 0x00#8])
      = .ok (.send 0x0101#16 true 2#32 []) ∧
    decode c (.frame [0xAA#8, 0x55#8, 0x00#8, 0x00#8, 0x00#8, 0x00#8, 0x00#8, 0x00#8, 0x01#8, 0x01#8, 0xA1#8, 0x25#8,
        0x0D#8, 0x0A#8]) = .ok (.frameCmd 0#32 0x0101#16 [] 0xA125#16 0x0D0A#16) ∧
    decode c (.subpacket [0xFA#8, 0xF5#8, 0x01#8, 0x00#8, 0x00#8, 0x00#8, 0x05#8, 0x00#8, 0x02#8, 0xAA#8, 0x55#8])
      = .ok (.spStart 5#32 [0xAA#8, 0x55#8])

/-- A step runs the decoded instruction: the next message is taken from what is presented, and nothing else is done. (That
the events stand in the state is the model's form of R9: logs 1 and 5.) -/
def Obligations.StepRunsDecodedInstruction : Prop :=
  ∀ (s : State) (m : Bytes) (rest : List Bytes) (i : Instr),
    s.inbox = m :: rest → decode s.cfg (.message m) = .ok i → step s = exec i { s with inbox := rest }

/-- R250: with no event presented the engine is idle and keeps all state. -/
def Obligations.IdleStepKeepsState : Prop :=
  ∀ s : State, s.inbox = [] → step s = .next s

/-- R88: a non-empty message that is the encoding of no operation is refused on `RSP` and noticed on `ERR`, both with its
opcode byte (that `RSP` carries the byte too is read from R231's table, log 12), and no register changes. -/
def Obligations.IllegalMessageIsRefused : Prop :=
  ∀ (s : State) (op : Byte) (body : Bytes) (rest : List Bytes),
    s.inbox = (op :: body) :: rest →
    (∀ i : Instr, i.wellFormed s.cfg = true → encode s.cfg i ≠ .message (op :: body)) →
    step s = .next { s with
      inbox := rest
      out := s.out ++ [.rsp (.err (.illegalOp op)), .err (.illegalOp op)] }

/-- R88 for the empty message, which has no opcode byte: refused the same way, with some byte in its place (the model's
choice: a free value, log 11). -/
def Obligations.EmptyMessageIsRefused : Prop :=
  ∀ (s : State) (rest : List Bytes), s.inbox = [] :: rest →
    ∃ op : Byte, step s = .next { s with
      inbox := rest
      out := s.out ++ [.rsp (.err (.illegalOp op)), .err (.illegalOp op)]
      freeCount := s.freeCount + 1 }

/-- A wire unit comes in through `RX` alone (R50, R80), and the step of that `RX` runs the instruction the unit decodes to
(that the unit's row is an instruction with this meaning is the model's reading of the table, logs 6 and 7): the sub-packet
that is its operand (R150), and the frame that is the data of a `none` sub-packet (R151, R161). -/
def Obligations.UnitArrivalIsReception : Prop :=
  ∀ (s : State) (b : Bytes) (rest : List Bytes) (i : Instr), b.length < 2 ^ 32 →
    s.inbox = ([0x33#8] ++ enc32 (BitVec.ofNat 32 b.length) ++ b) :: rest →
    (decode s.cfg (.subpacket b) = .ok i → step s = exec i { s with inbox := rest }) ∧
    (∀ (id : U32) (f : Bytes), f.length ≤ 65535 → b = subpkt s.cfg .whole id f → decode s.cfg (.frame f) = .ok i →
      step s = exec i { s with inbox := rest })

/-- R230: no error stops the engine; every step, whatever the state, answers a next state. -/
def Obligations.EveryStepGoesOn : Prop :=
  ∀ s : State, ∃ t : State, step s = .next t

/-! ### Invariants -/

/-- Every step keeps the engine's invariant: the reassembler's normal form (R28), its capacity (R27), the table's size
(R29), the uniqueness of pending serials (R175), and no registration without a link (R196). R28, R175 and the last are the
spec's own inferences ("[derived: from ...]"). -/
def Obligations.StepKeepsInvariant : Prop :=
  ∀ s t : State, s.Inv → step s = .next t → t.Inv

/-- The invariant holds at reset. -/
def Obligations.ResetStateSatisfiesInvariant : Prop := State.reset.Inv

/-- R64: no operation writes the configuration (that it stands in the state is the model's choice, log 1). And outputs, once
emitted, stay: a step only appends to them (the model's choice, log 10, for the output list of R10 and R61). -/
def Obligations.StepKeepsConfigurationAndOutputs : Prop :=
  ∀ s t : State, step s = .next t → t.cfg = s.cfg ∧ ∃ new : List Output, t.out = s.out ++ new

/-! ### Reset -/

/-- R260, R39: `RESET` in any state. The fields of a slot that is not valid are not observable and are not stated. -/
def Obligations.ResetSetsEveryRegister : Prop :=
  ∀ s : State, ∃ table : List Slot,
    table.length = s.cfg.nPending ∧ (∀ p ∈ table, p.valid = false) ∧
    exec .reset s = .next { s with
      regs := { serialNext := s.cfg.serialInit, pktidNext := s.cfg.pktidInit, mtu := 0, link := false, time := 0#64,
                pend := table, rsmState := .idle, rsmBase := 0#32, rsmCount := 0#32, rsmBuf := [] }
      out := s.out ++ [.rsp .ack] }

/-- R261: power-up leaves the engine in the same state as `RESET`, whatever came before under the same configuration. -/
def Obligations.PowerUpEqualsReset : Prop :=
  ∀ s t : State, s.cfg = State.reset.cfg → exec .reset s = .next t → t.regs = State.reset.regs

/-! ### The CRC generator -/

/-- R104 (with R102 and R103): `CRC.CALC` answers the fold of the update formula over the bytes, seed 0. -/
def Obligations.CrcCalcAnswersChecksum : Prop :=
  ∀ (s : State) (b : Bytes),
    exec (.crcCalc b) s = .next { s with
      out := s.out ++ [.rsp (.crc (b.foldl
        (fun crc x => (crc >>> 8) ^^^ crcTable ((crc.extractLsb' 0 8) ^^^ x)) 0#16))] }

/-- R105, an inference of the spec ("It gives the same result as rule R102 for every `crc` and `byte`"): the bit-serial form,
eight shifts with the polynomial 0xA001 for each byte, agrees with the table, whose entries are eight such shifts of their
index (R101: the spec's general knowledge, log 19). -/
def Obligations.BitSerialFormAgrees : Prop :=
  ∀ shift : U16 → U16, (∀ c : U16, shift c = if c.getLsbD 0 = true then (c >>> 1) ^^^ 0xA001#16 else c >>> 1) →
    (∀ i : Byte, crcTable i = shift^[8] (i.zeroExtend 16)) ∧
    (∀ (crc : U16) (x : Byte),
      crcSerialUpdate crc x = shift^[8] (crc ^^^ x.zeroExtend 16) ∧ crcSerialUpdate crc x = crcUpdate crc x) ∧
    ∀ b : Bytes, crc16Serial b = crc16 b ∧ crc16 b = b.foldl (fun crc x => shift^[8] (crc ^^^ x.zeroExtend 16)) 0#16

/-- R106, an inference of the spec: any number of zero bytes has checksum 0, and leading zero bytes do not affect the
result. -/
def Obligations.LeadingZerosDoNotAffectCrc : Prop :=
  ∀ (k : Nat) (b : Bytes), crc16 (List.replicate k 0#8) = 0#16 ∧ crc16 (List.replicate k 0#8 ++ b) = crc16 b

/-- R107, an inference of the spec: the checksum is linear over exclusive-or for inputs of equal length. -/
def Obligations.CrcIsLinear : Prop :=
  ∀ a b : Bytes, a.length = b.length → crc16 (List.zipWith (· ^^^ ·) a b) = crc16 a ^^^ crc16 b

/-- R107, general knowledge the spec asks a model to prove: a change of exactly one bit always changes the checksum. -/
def Obligations.CrcDetectsOneChangedBit : Prop :=
  ∀ (b : Bytes) (k j : Nat), k < b.length → j < 8 → crc16 (flipBit b k j) ≠ crc16 b

/-! ### The frame unit -/

/-- R52 to R55: for each integer of the codec the formula of its decoder, most significant byte first, and both inverses.
That an `i32` is two's complement is the spec's general knowledge (U2): that clause rests on log 20, PRESUMED. -/
def Obligations.IntegerCodecRoundTrips : Prop :=
  (∀ x : Byte, be8 [x] = x ∧ enc8 x = [x]) ∧
  (∀ v : U16, be16 (enc16 v) = v) ∧ (∀ v : U32, be32 (enc32 v) = v) ∧ (∀ v : U64, be64 (enc64 v) = v) ∧
  (∀ v : Int, -2 ^ 31 ≤ v → v < 2 ^ 31 → beI32 (encI32 v) = v) ∧
  (∀ x y : Byte, (be16 [x, y]).toNat = x.toNat * 256 + y.toNat ∧ enc16 (be16 [x, y]) = [x, y]) ∧
  (∀ x y z w : Byte,
    (be32 [x, y, z, w]).toNat = x.toNat * 2 ^ 24 + y.toNat * 2 ^ 16 + z.toNat * 2 ^ 8 + w.toNat ∧
    enc32 (be32 [x, y, z, w]) = [x, y, z, w] ∧
    beI32 [x, y, z, w] = (if (be32 [x, y, z, w]).toNat < 2 ^ 31 then ((be32 [x, y, z, w]).toNat : Int)
      else (be32 [x, y, z, w]).toNat - 2 ^ 32) ∧
    encI32 (beI32 [x, y, z, w]) = [x, y, z, w]) ∧
  (∀ a b c d e f g h : Byte,
    (be64 [a, b, c, d, e, f, g, h]).toNat =
      a.toNat * 2 ^ 56 + b.toNat * 2 ^ 48 + c.toNat * 2 ^ 40 + d.toNat * 2 ^ 32 +
      e.toNat * 2 ^ 24 + f.toNat * 2 ^ 16 + g.toNat * 2 ^ 8 + h.toNat ∧
    enc64 (be64 [a, b, c, d, e, f, g, h]) = [a, b, c, d, e, f, g, h])

/-- R117 (with R116): the two checks of `FRAME.BUILD` in order, then the wire frame of `14 + len(p)` bytes. (That the refusal
carries the command code is read from R231's table, log 12.) -/
def Obligations.FrameBuildChecksThenSerializes : Prop :=
  ∀ (s : State) (serial : U32) (cmd : U16) (p : Bytes),
    (s.cfg.isCommand cmd = false →
      exec (.frameBuild serial cmd p) s = .next { s with out := s.out ++ [.rsp (.err (.unknownCommand cmd))] }) ∧
    (s.cfg.isCommand cmd = true → 65535 < p.length →
      exec (.frameBuild serial cmd p) s = .next { s with out := s.out ++ [.rsp (.err .payloadTooLong)] }) ∧
    (s.cfg.isCommand cmd = true → p.length ≤ 65535 →
      ∃ body wire : Bytes,
        body = [0xAA#8, 0x55#8] ++ enc32 serial ++ enc16 (BitVec.ofNat 16 p.length) ++ enc16 cmd ++ p ∧
        wire = body ++ enc16 (crc16 body) ++ [0x0D#8, 0x0A#8] ∧ wire.length = 14 + p.length ∧
        exec (.frameBuild serial cmd p) s = .next { s with out := s.out ++ [.rsp (.bytes wire)] })

/-- R127, an inference of the spec: parsing a built frame gives back its serial, command, length and payload, and the
checksum of its first `10 + len(p)` bytes. -/
def Obligations.ParseInvertsSerialize : Prop :=
  ∀ (s : State) (serial : U32) (cmd : U16) (p : Bytes), s.cfg.isCommand cmd = true → p.length ≤ 65535 →
    exec (.frameParse (serialize serial cmd p)) s = .next { s with
      out := s.out ++ [.rsp (.frame {
        serial := serial, length := BitVec.ofNat 16 p.length, command := cmd, payload := p,
        checksum := crc16 ((serialize serial cmd p).take (10 + p.length)) })] }

/-- R128, an inference of the spec: an accepted byte string is the serialization of what was parsed from it, on a recognised
command. -/
def Obligations.AcceptedFrameHasOneForm : Prop :=
  ∀ (s : State) (b : Bytes) (f : Frame),
    exec (.frameParse b) s = .next { s with out := s.out ++ [.rsp (.frame f)] } →
    b = serialize f.serial f.command f.payload ∧ s.cfg.isCommand f.command = true ∧
      f.length.toNat = f.payload.length ∧ f.payload.length ≤ 65535

/-- R121, R124: the first failing step, in the numbered order, is what `FRAME.PARSE` reports; a frame that passes all six is
answered with its fields. -/
def Obligations.FrameParseReportsFirstFailure : Prop :=
  ∀ (s : State) (b : Bytes) (l : Nat) (cmd computed found : U16),
    l = (b.getD 6 0#8).toNat * 256 + (b.getD 7 0#8).toNat →
    cmd = (b.getD 8 0#8) ++ (b.getD 9 0#8) →
    computed = crc16 (b.take (10 + l)) →
    found = (b.getD (10 + l) 0#8) ++ (b.getD (11 + l) 0#8) →
    exec (.frameParse b) s = .next { s with out := s.out ++ [.rsp (
      if b.length < 14 then .err (.malformedFrame .tooShort)
      else if b.take 2 ≠ [0xAA#8, 0x55#8] then .err (.malformedFrame .badHeader)
      else if b.length ≠ 14 + l then .err (.malformedFrame .lengthMismatch)
      else if s.cfg.isCommand cmd = false then .err (.unknownCommand cmd)
      else if b.drop (12 + l) ≠ [0x0D#8, 0x0A#8] then .err (.malformedFrame .badTerminator)
      else if computed ≠ found then .err (.checksumMismatch computed found)
      else .frame { serial := (b.getD 2 0#8) ++ (b.getD 3 0#8) ++ (b.getD 4 0#8) ++ (b.getD 5 0#8),
                    length := BitVec.ofNat 16 l, command := cmd, payload := (b.drop 10).take l, checksum := found })] }

/-- R125, an inference of the spec: one changed bit of a valid frame is always refused, and where the bit lies says with
which error. -/
def Obligations.OneChangedBitIsRefused : Prop :=
  ∀ (s : State) (serial : U32) (cmd : U16) (p : Bytes) (k j : Nat),
    s.cfg.isCommand cmd = true → p.length ≤ 65535 → k < 14 + p.length → j < 8 →
    ∃ e : Error,
      exec (.frameParse (flipBit (serialize serial cmd p) k j)) s = .next { s with out := s.out ++ [.rsp (.err e)] } ∧
      (k < 2 → e = .malformedFrame .badHeader) ∧
      (2 ≤ k ∧ k < 6 ∨ 10 ≤ k ∧ k < 12 + p.length → ∃ x y : U16, x ≠ y ∧ e = .checksumMismatch x y) ∧
      (6 ≤ k ∧ k < 8 → e = .malformedFrame .lengthMismatch) ∧
      (8 ≤ k ∧ k < 10 → ∀ cmd' : U16, cmd' = cmd ^^^ (1#16 <<< (8 * (9 - k) + j)) →
        (s.cfg.isCommand cmd' = false → e = .unknownCommand cmd') ∧
        (s.cfg.isCommand cmd' = true → ∃ x y : U16, x ≠ y ∧ e = .checksumMismatch x y)) ∧
      (12 + p.length ≤ k → e = .malformedFrame .badTerminator)

/-! ### Fragmenting -/

/-- R143, R144, R145 (with R42): the sub-packets of `FRAG`, their number, tags, ids and chunks; each is a sub-packet the
receiver accepts and is at most `mtu` bytes long. -/
def Obligations.FragCutsInputIntoSubpackets : Prop :=
  ∀ (s : State) (mtu base : U32) (b : Bytes) (cs : Nat),
    s.cfg.wf → 10 ≤ mtu.toNat → mtu.toNat ≤ 65544 → cs = mtu.toNat - 9 →
    ∃ l : List Bytes,
      exec (.frag mtu base b) s = .next { s with out := s.out ++ [.rsp (.packets l)] } ∧
      1 ≤ l.length ∧ b.length ≤ l.length * cs ∧ (l.length = 1 ∨ (l.length - 1) * cs < b.length) ∧
      ∀ (i : Nat) (h : i < l.length),
        parseSubpkt s.cfg l[i] = .ok {
          status := if l.length = 1 then .whole else if i = 0 then .start else if i + 1 = l.length then .last else .middle
          packetId := base + BitVec.ofNat 32 i
          data := (b.drop (i * cs)).take cs } ∧
        l[i].length ≤ mtu.toNat

/-- R141, of R142: `FRAG` refuses an `mtu` below 10 or above `MTU_MAX` with `BadMtu`. -/
def Obligations.FragRefusesBadMtu : Prop :=
  ∀ (s : State) (mtu base : U32) (b : Bytes), mtu.toNat < 10 ∨ 65544 < mtu.toNat →
    exec (.frag mtu base b) s = .next { s with out := s.out ++ [.rsp (.err .badMtu)] }

/-- R164, an inference of the spec: the sub-packets of a byte string, presented in order to an idle engine, deliver exactly
that byte string, once, at the last sub-packet (as a `none` sub-packet with those bytes would, R151), and leave the
reassembler idle and empty. -/
def Obligations.ReassemblyInvertsFragmentation : Prop :=
  ∀ (s : State) (mtu : Nat) (base id : U32) (b : Bytes),
    s.cfg.wf → s.regs.reassemblerOk → s.regs.rsmState = .idle →
    10 ≤ mtu → mtu ≤ 65544 → b.length ≤ s.cfg.rsmBufMax →
    ∃ t u : State,
      runEvents ((fragment s.cfg b mtu base).dropLast.map .rx) s = .next u ∧ u.out = s.out ∧
      runEvents ((fragment s.cfg b mtu base).map .rx) s = .next t ∧ exec (.spNone id b) s = .next t ∧
      t.regs.rsmState = .idle ∧ t.regs.rsmBase = 0#32 ∧ t.regs.rsmCount = 0#32 ∧ t.regs.rsmBuf = []

/-- R165, an inference of the spec: one `middle` with an altered id aborts the whole sequence; the rest of it meets `Idle`;
nothing is delivered, and a fresh sequence is then delivered as ever. -/
def Obligations.BrokenSequenceDeliversNothing : Prop :=
  ∀ (s : State) (mtu m : Nat) (base bad : U32) (b : Bytes) (sps : List Bytes),
    s.cfg.wf → s.regs.reassemblerOk → s.regs.rsmState = .idle →
    10 ≤ mtu → mtu ≤ 65544 → b.length ≤ s.cfg.rsmBufMax → sps = fragment s.cfg b mtu base →
    0 < m → m + 1 < sps.length → bad ≠ base + BitVec.ofNat 32 m →
    ∃ t : State,
      runEvents ((sps.set m (subpkt s.cfg .middle bad ((b.drop (m * (mtu - 9))).take (mtu - 9)))).map .rx) s = .next t ∧
      t = { s with out := s.out ++
        [.err (.reassemblyAborted (.unexpectedId (base + BitVec.ofNat 32 m) bad))] ++
        List.replicate (sps.length - 1 - m) (.err (.reassemblyAborted .noReassembly)) } ∧
      ∀ id : U32, runEvents (sps.map .rx) t = exec (.spNone id b) t

/-! ### The reassembler -/

/-- R150: `RX` of the bytes of a sub-packet runs that sub-packet, whatever the state. -/
def Obligations.RxRunsTheSubpacket : Prop :=
  ∀ (s : State) (st : SpStatus) (id : U32) (d : Bytes), s.cfg.wf → d.length ≤ 65535 →
    exec (.rx (subpkt s.cfg st id d)) s = exec (SubPacket.instr { status := st, packetId := id, data := d }) s

/-- R152 and R157: a `start` that fits opens a reassembly; in `Assembling` the old one is aborted first. Said of `RX` of its
bytes and of the sub-packet itself. -/
def Obligations.StartOpensReassembly : Prop :=
  ∀ (s t : State) (id : U32) (d : Bytes), s.cfg.wf → d.length ≤ 65535 → d.length ≤ s.cfg.rsmBufMax →
    t = { s with
      regs := { s.regs with rsmState := .assembling, rsmBase := id, rsmCount := 1#32, rsmBuf := [d] }
      out := s.out ++
        (if s.regs.rsmState = .assembling then [.err (.reassemblyAborted .startWhileAssembling)] else []) } →
    exec (.rx (subpkt s.cfg .start id d)) s = .next t ∧ exec (.spStart id d) s = .next t

/-- R153 and R154: in `Assembling`, a `middle` with the expected id that fits is appended; with any other id the reassembly
is aborted. -/
def Obligations.MiddleAppendsOrAborts : Prop :=
  ∀ (s : State) (id : U32) (d : Bytes), s.cfg.wf → d.length ≤ 65535 → s.regs.rsmState = .assembling →
    (id = s.regs.rsmBase + s.regs.rsmCount → s.regs.rsmBuf.flatten.length + d.length ≤ s.cfg.rsmBufMax →
      ∃ t : State, t = { s with regs := { s.regs with
          rsmBuf := s.regs.rsmBuf ++ [d], rsmCount := s.regs.rsmCount + 1#32 } } ∧
        exec (.rx (subpkt s.cfg .middle id d)) s = .next t ∧ exec (.spMiddle id d) s = .next t) ∧
    (id ≠ s.regs.rsmBase + s.regs.rsmCount →
      ∃ t : State, t = { s with
          regs := { s.regs with rsmState := .idle, rsmBase := 0#32, rsmCount := 0#32, rsmBuf := [] }
          out := s.out ++
            [.err (.reassemblyAborted (.unexpectedId (s.regs.rsmBase + s.regs.rsmCount) id))] } ∧
        exec (.rx (subpkt s.cfg .middle id d)) s = .next t ∧ exec (.spMiddle id d) s = .next t)

/-- R155 and R156: in `Assembling`, an `end` with the expected id that fits clears the state and delivers the concatenation
(as a `none` sub-packet with those bytes would in the cleared state, R151); with any other id the reassembly is aborted. -/
def Obligations.EndDeliversOrAborts : Prop :=
  ∀ (s cleared : State) (id : U32) (d : Bytes), s.cfg.wf → d.length ≤ 65535 → s.regs.rsmState = .assembling →
    cleared = { s with regs := { s.regs with
      rsmState := .idle, rsmBase := 0#32, rsmCount := 0#32, rsmBuf := [] } } →
    (id = s.regs.rsmBase + s.regs.rsmCount → s.regs.rsmBuf.flatten.length + d.length ≤ s.cfg.rsmBufMax →
      ∃ t : State, exec (.rx (subpkt s.cfg .last id d)) s = .next t ∧ exec (.spEnd id d) s = .next t ∧
        exec (.spNone id (s.regs.rsmBuf.flatten ++ d)) cleared = .next t ∧
        t.regs.rsmState = .idle ∧ t.regs.rsmBase = 0#32 ∧ t.regs.rsmCount = 0#32 ∧ t.regs.rsmBuf = []) ∧
    (id ≠ s.regs.rsmBase + s.regs.rsmCount →
      ∃ t : State, t = { cleared with
          out := s.out ++
            [.err (.reassemblyAborted (.unexpectedId (s.regs.rsmBase + s.regs.rsmCount) id))] } ∧
        exec (.rx (subpkt s.cfg .last id d)) s = .next t ∧ exec (.spEnd id d) s = .next t)

/-- R158: an append that would exceed the buffer does not happen; the reassembler is cleared and the overflow reported (for a
`start` in `Assembling`, after the notice of R157: log 18). -/
def Obligations.OverflowAbortsReassembly : Prop :=
  ∀ (s cleared : State) (id : U32) (d : Bytes),
    cleared = { s with regs := { s.regs with
      rsmState := .idle, rsmBase := 0#32, rsmCount := 0#32, rsmBuf := [] } } →
    (s.cfg.rsmBufMax < d.length →
      exec (.spStart id d) s = .next { cleared with out := s.out ++
        (if s.regs.rsmState = .assembling then [.err (.reassemblyAborted .startWhileAssembling)] else []) ++
        [.err (.reassemblyAborted .overflow)] }) ∧
    (s.regs.rsmState = .assembling → id = s.regs.rsmBase + s.regs.rsmCount →
      s.cfg.rsmBufMax < s.regs.rsmBuf.flatten.length + d.length →
      exec (.spMiddle id d) s = .next { cleared with out := s.out ++ [.err (.reassemblyAborted .overflow)] } ∧
      exec (.spEnd id d) s = .next { cleared with out := s.out ++ [.err (.reassemblyAborted .overflow)] })

/-- R159: in `Idle`, a `middle` or an `end` is discarded with a notice and no register changes. -/
def Obligations.IdleDiscardsMiddleAndEnd : Prop :=
  ∀ (s t : State) (id : U32) (d : Bytes), s.regs.rsmState = .idle →
    t = { s with out := s.out ++ [.err (.reassemblyAborted .noReassembly)] } →
    exec (.spMiddle id d) s = .next t ∧ exec (.spEnd id d) s = .next t

/-- R162 (with R146): a unit that fails the sub-packet checks is discarded, the reassembler is cleared, and the number of the
first failing check, 1 to 4, is reported. -/
def Obligations.MalformedSubpacketResetsReassembler : Prop :=
  ∀ (s : State) (b : Bytes) (k : SubpktCheck) (number : Nat),
    (k = .tooShort ∧ number = 1 ∧ b.length < 9) ∨
    (k = .badHeader ∧ number = 2 ∧ 9 ≤ b.length ∧ b.take 2 ≠ [0xFA#8, 0xF5#8]) ∨
    (k = .badStatus ∧ number = 3 ∧ 9 ≤ b.length ∧ b.take 2 = [0xFA#8, 0xF5#8] ∧
      b.getD 2 0#8 ∉ [s.cfg.stNone, s.cfg.stStart, s.cfg.stMiddle, s.cfg.stEnd]) ∨
    (k = .lengthMismatch ∧ number = 4 ∧ 9 ≤ b.length ∧ b.take 2 = [0xFA#8, 0xF5#8] ∧
      b.getD 2 0#8 ∈ [s.cfg.stNone, s.cfg.stStart, s.cfg.stMiddle, s.cfg.stEnd] ∧
      b.length ≠ 9 + ((b.getD 7 0#8).toNat * 256 + (b.getD 8 0#8).toNat)) →
    k.number = number ∧
    exec (.rx b) s = .next { s with
      regs := { s.regs with rsmState := .idle, rsmBase := 0#32, rsmCount := 0#32, rsmBuf := [] }
      out := s.out ++ [.err (.malformedSubPacket k)] }

/-- R231: the codes of the errors the engine reports, and of the two outcomes of `DONE` that are failures. -/
def Obligations.ErrorCodesAreThoseOfTheCauseTable : Prop :=
  Error.notConnected.code = 1 ∧ (∀ r, (Error.malformedFrame r).code = 2) ∧
  (∀ computed found, (Error.checksumMismatch computed found).code = 3) ∧ (∀ c, (Error.unknownCommand c).code = 4) ∧
  (∀ r, (Error.reassemblyAborted r).code = 5) ∧ (∀ k, (Error.malformedSubPacket k).code = 16) ∧
  Error.busy.code = 17 ∧ Error.payloadTooLong.code = 18 ∧ Error.badMtu.code = 19 ∧
  (∀ x, (Error.staleReply x).code = 20) ∧ (∀ op, (Error.illegalOp op).code = 21) ∧
  Completion.linkDown.cause.map Cause.code = some 1 ∧ Completion.timeout.cause.map Cause.code = some 6 ∧
  ∀ status, (Completion.reply status).cause = none

/-! ### Delivering and routing frames -/

/-- R151, R160, R161, R184, R181: a valid frame that is no response, in a `none` sub-packet or at the frame parser, is
forwarded on `APP` with its three fields; no register changes, in `Idle` and in `Assembling`, and whatever is pending (so a
5-byte payload under a command that is not reply-bearing never consumes a registration). -/
def Obligations.ApplicationFrameIsForwarded : Prop :=
  ∀ (s t : State) (id serial : U32) (cmd : U16) (p : Bytes),
    s.cfg.isCommand cmd = true → p.length ≤ 65535 → ¬ (p.length = 5 ∧ s.cfg.isReplyBearing cmd = true) →
    t = { s with out := s.out ++ [.app serial cmd p] } →
    exec (.spNone id (serialize serial cmd p)) s = .next t ∧
    exec (.frameCmd serial cmd p (crc16 ((serialize serial cmd p).take (10 + p.length))) 0x0D0A#16) s = .next t

/-- R161 with R121: delivered bytes that the frame parser refuses are dropped with the notice of the first of its six steps
that fails, in the numbered order (R124), and no register changes: the data of a `none` sub-packet, and a frame, command or
response, at the frame parser (which has passed steps 1 to 3). -/
def Obligations.RefusedFrameIsDropped : Prop :=
  (∀ (s : State) (id : U32) (b : Bytes) (l : Nat) (cmd computed found : U16) (e : Error),
    l = (b.getD 6 0#8).toNat * 256 + (b.getD 7 0#8).toNat →
    cmd = (b.getD 8 0#8) ++ (b.getD 9 0#8) →
    computed = crc16 (b.take (10 + l)) →
    found = (b.getD (10 + l) 0#8) ++ (b.getD (11 + l) 0#8) →
    (if b.length < 14 then some (.malformedFrame .tooShort)
      else if b.take 2 ≠ [0xAA#8, 0x55#8] then some (.malformedFrame .badHeader)
      else if b.length ≠ 14 + l then some (.malformedFrame .lengthMismatch)
      else if s.cfg.isCommand cmd = false then some (.unknownCommand cmd)
      else if b.drop (12 + l) ≠ [0x0D#8, 0x0A#8] then some (.malformedFrame .badTerminator)
      else if computed ≠ found then some (.checksumMismatch computed found)
      else none) = some e →
    exec (.spNone id b) s = .next { s with out := s.out ++ [.err e] }) ∧
  (∀ (s : State) (serial : U32) (cmd : U16) (p : Bytes) (found terminator computed : U16) (e : Error),
    p.length ≤ 65535 → computed = crc16 ((serialize serial cmd p).take (10 + p.length)) →
    (if s.cfg.isCommand cmd = false then some (.unknownCommand cmd)
      else if terminator ≠ 0x0D0A#16 then some (.malformedFrame .badTerminator)
      else if computed ≠ found then some (.checksumMismatch computed found)
      else none) = some e →
    exec (.frameCmd serial cmd p found terminator) s = .next { s with out := s.out ++ [.err e] } ∧
    ∀ (responded : U32) (status : Byte), p = enc32 responded ++ [status] →
      exec (.frameResponse serial cmd responded status found terminator) s = .next { s with out := s.out ++ [.err e] })

/-- R180, R183: a valid response to a pending serial, in a `none` sub-packet or at the frame parser, resolves that
registration, whatever its status byte: the slot that holds the serial is freed and one `DONE` with the raw byte is emitted;
nothing else changes. -/
def Obligations.ResponseResolvesItsRegistration : Prop :=
  ∀ (s t : State) (id serial responded : U32) (cmd checksum : U16) (status : Byte) (p : Bytes),
    s.Inv → s.cfg.isCommand cmd = true → s.cfg.isReplyBearing cmd = true →
    p = enc32 responded ++ [status] → checksum = crc16 ((serialize serial cmd p).take 15) →
    responded ∈ pendingSerials s.regs.pend →
    t = { s with
      regs := { s.regs with pend := s.regs.pend.map fun q =>
        if q.valid = true ∧ q.serial = responded then { q with valid := false } else q }
      out := s.out ++ [.done responded (.reply status)] } →
    exec (.spNone id (serialize serial cmd p)) s = .next t ∧
    exec (.frameResponse serial cmd responded status checksum 0x0D0A#16) s = .next t

/-- R182: a valid response to a serial that is not pending, in a `none` sub-packet or at the frame parser, is dropped with a
notice: it is not forwarded on `APP`, and no register changes. -/
def Obligations.StaleReplyIsDropped : Prop :=
  ∀ (s t : State) (id serial responded : U32) (cmd checksum : U16) (status : Byte) (p : Bytes),
    s.cfg.isCommand cmd = true → s.cfg.isReplyBearing cmd = true →
    p = enc32 responded ++ [status] → checksum = crc16 ((serialize serial cmd p).take 15) →
    responded ∉ pendingSerials s.regs.pend →
    t = { s with out := s.out ++ [.err (.staleReply responded)] } →
    exec (.spNone id (serialize serial cmd p)) s = .next t ∧
    exec (.frameResponse serial cmd responded status checksum 0x0D0A#16) s = .next t

/-- R150, R276: what a received unit does depends on the reassembler's registers, the pending table and the configuration
alone: not on `LINK`, `MTU`, `TIME` or the counters, none of which it changes. -/
def Obligations.ReceptionIgnoresLinkMtuTimeAndCounters : Prop :=
  ∀ (i : Instr) (s : State) (link : Bool) (mtu : Fin 65545) (time : U64) (serialNext pktidNext : U32), unitEvent i = true →
    ∃ (r : Registers) (new : List Output),
      r.link = s.regs.link ∧ r.mtu = s.regs.mtu ∧ r.time = s.regs.time ∧ r.serialNext = s.regs.serialNext ∧
      r.pktidNext = s.regs.pktidNext ∧
      exec i s = .next { s with regs := r, out := s.out ++ new } ∧
      exec i { s with regs := { s.regs with
          link := link, mtu := mtu, time := time, serialNext := serialNext, pktidNext := pktidNext } } =
        .next { s with
          regs := { r with
            link := link, mtu := mtu, time := time, serialNext := serialNext, pktidNext := pktidNext }
          out := s.out ++ new }

/-! ### The dispatcher -/

/-- R172 steps 1 to 5 (R174): the first check that fails, in the numbered order, is the answer, and no register changes.
(That `UnknownCommand` carries the code is read from R231's table, log 12.) -/
def Obligations.SendRefusesInOrder : Prop :=
  ∀ (s : State) (cmd : U16) (expectsReply : Bool) (timeout : U32) (p : Bytes), ¬ s.canSend cmd expectsReply p →
    exec (.send cmd expectsReply timeout p) s = .next { s with out := s.out ++ [.rsp (.err (
      if s.regs.link = false then .notConnected
      else if s.cfg.isCommand cmd = false then .unknownCommand cmd
      else if 65535 < p.length then .payloadTooLong
      else if s.regs.mtu.val < 10 then .badMtu
      else .busy))] }

/-- R172 steps 6 to 11: an accepted `SEND` takes the next serial, writes the sub-packets of its frame in order from
`PKTID_NEXT` on, registers in the lowest free slot when a reply is expected, and answers `Sent(serial)`; nothing else
changes. -/
def Obligations.SendIssuesCommand : Prop :=
  ∀ (s : State) (cmd : U16) (expectsReply : Bool) (timeout : U32) (p : Bytes) (sps : List Bytes),
    s.canSend cmd expectsReply p →
    sps = fragment s.cfg (serialize s.regs.serialNext cmd p) s.regs.mtu.val s.regs.pktidNext →
    ∃ pend : List Slot,
      exec (.send cmd expectsReply timeout p) s = .next { s with
        regs := { s.regs with
          serialNext := s.regs.serialNext + 1#32
          pktidNext := s.regs.pktidNext + BitVec.ofNat 32 sps.length
          pend := pend }
        out := s.out ++ sps.map .tx ++ [.rsp (.sent s.regs.serialNext)] } ∧
      (expectsReply = false → pend = s.regs.pend) ∧
      (expectsReply = true → ∃ j : Nat, (∃ q, s.regs.pend[j]? = some q ∧ q.valid = false) ∧
        (∀ k < j, ∀ q, s.regs.pend[k]? = some q → q.valid = true) ∧
        pend = s.regs.pend.set j
          { valid := true, serial := s.regs.serialNext, issuedAt := s.regs.time, timeout := timeout })

/-- R42: every `TX` of a `SEND` is at most `MTU` bytes long, and (R281) no other operation writes to the transport. -/
def Obligations.OnlySendWritesAndWithinMtu : Prop :=
  ∀ (i : Instr) (s t : State) (new : List Output) (b : Bytes),
    exec i s = .next t → t.out = s.out ++ new → .tx b ∈ new →
    (∃ cmd expectsReply timeout p, i = .send cmd expectsReply timeout p) ∧ b.length ≤ s.regs.mtu.val

/-- R66, R164: what one engine's `SEND` writes to the transport, presented in order as `RX` events to an idle engine with the
same configuration, is forwarded there as exactly that command. -/
def Obligations.SentCommandArrivesWhole : Prop :=
  ∀ (a b a' : State) (cmd : U16) (expectsReply : Bool) (timeout : U32) (p : Bytes) (new : List Output),
    a.cfg.wf → b.cfg = a.cfg → b.regs.reassemblerOk → b.regs.rsmState = .idle → 14 + p.length ≤ b.cfg.rsmBufMax →
    a.canSend cmd expectsReply p → ¬ (p.length = 5 ∧ a.cfg.isReplyBearing cmd = true) →
    exec (.send cmd expectsReply timeout p) a = .next a' → a'.out = a.out ++ new →
    runEvents ((new.filterMap Output.txBytes?).map .rx) b =
      .next { b with out := b.out ++ [.app a.regs.serialNext cmd p] }

/-- R197, an inference of the spec: the serials returned by successive successful `SEND`s after a reset are `SERIAL_INIT`,
`SERIAL_INIT +_32 1`, and so on, whatever other events come between. -/
def Obligations.SerialsAreConsecutive : Prop :=
  ∀ (s : State) (es : List Instr), .reset ∉ es →
    ∃ (t : State) (new : List Output) (n : Nat),
      runEvents (.reset :: es) s = .next t ∧ t.out = s.out ++ [.rsp .ack] ++ new ∧
      new.filterMap Output.sentSerial? = (List.range n).map (fun k => s.cfg.serialInit + BitVec.ofNat 32 k) ∧
      t.regs.serialNext = s.cfg.serialInit + BitVec.ofNat 32 n

/-- R198, an inference of the spec: a `SEND` that expects a reply and is accepted is resolved at most once before its serial
is issued again; and exactly once if no `CANCEL` of it, `CANCEL_ALL` or `RESET` comes and at least `max(timeout, 1)` `TICK`s
do. -/
def Obligations.RegistrationResolvesExactlyOnce : Prop :=
  ∀ (s : State) (cmd : U16) (timeout : U32) (p : Bytes) (es : List Instr),
    s.Inv → s.canSend cmd true p →
    ∃ (t : State) (new : List Output),
      runEvents (.send cmd true timeout p :: es) s = .next t ∧ t.out = s.out ++ new ∧
      (new.count (.rsp (.sent s.regs.serialNext)) = 1 →
        new.countP (Output.isDoneOf s.regs.serialNext) ≤ 1 ∧
        (.reset ∉ es → .cancelAll ∉ es → .cancel s.regs.serialNext ∉ es → max timeout.toNat 1 ≤ es.count .tick →
          new.countP (Output.isDoneOf s.regs.serialNext) = 1))

/-- R183, R63: a `DONE` for a serial comes only from a registration of that serial, and the same step frees it. -/
def Obligations.DoneFreesItsSlot : Prop :=
  ∀ (i : Instr) (s t : State) (new : List Output) (x : U32) (o : Completion),
    s.Inv → exec i s = .next t → t.out = s.out ++ new → .done x o ∈ new →
    x ∈ pendingSerials s.regs.pend ∧ x ∉ pendingSerials t.regs.pend ∧ new.countP (Output.isDoneOf x) = 1

/-- R186, R187: `TICK` advances `TIME` by 1 modulo 2^64 and then, in ascending slot order, resolves every registration whose
elapsed time is at least its timeout; nothing else changes. -/
def Obligations.TickResolvesExpired : Prop :=
  ∀ (s : State) (now : U64) (due : Slot → Bool), now = s.regs.time + 1#64 →
    (∀ q : Slot, due q = true ↔ q.valid = true ∧ q.timeout.toNat ≤ (now - q.issuedAt).toNat) →
    exec .tick s = .next { s with
      regs := { s.regs with
        time := now
        pend := s.regs.pend.map fun q => if due q then { q with valid := false } else q }
      out := s.out ++ (s.regs.pend.filter due).map fun q => .done q.serial .timeout }

/-- R188, an inference of the spec: a registration made now with timeout `T` is still pending after fewer than `max(T, 1)`
`TICK`s and is resolved by the `max(T, 1)`-th, with `Timeout`. -/
def Obligations.TimeoutFiresAtItsTick : Prop :=
  ∀ (s : State) (j n : Nat) (q : Slot),
    s.regs.pend[j]? = some q → q.valid = true → q.issuedAt = s.regs.time →
    ∃ (t : State) (new : List Output), runEvents (ticks n) s = .next t ∧ t.out = s.out ++ new ∧
      (n < max q.timeout.toNat 1 → t.regs.pend[j]? = some q) ∧
      (n = max q.timeout.toNat 1 →
        t.regs.pend[j]? = some { q with valid := false } ∧ .done q.serial .timeout ∈ new)

/-- R190: `CANCEL` removes the registration of its serial and answers how many it removed; no `DONE`, nothing else changes.
-/
def Obligations.CancelRemovesOneSilently : Prop :=
  ∀ (s : State) (x : U32), s.Inv →
    exec (.cancel x) s = .next { s with
      regs := { s.regs with pend := s.regs.pend.map fun q =>
        if q.valid = true ∧ q.serial = x then { q with valid := false } else q }
      out := s.out ++ [.rsp (.cancelled (if x ∈ pendingSerials s.regs.pend then 1 else 0))] }

/-- R191: `CANCEL_ALL` removes every registration and answers their number; no `DONE`, nothing else changes. -/
def Obligations.CancelAllRemovesEverySilently : Prop :=
  ∀ s : State,
    exec .cancelAll s = .next { s with
      regs := { s.regs with pend := s.regs.pend.map fun q => { q with valid := false } }
      out := s.out ++ [.rsp (.cancelled (pendingSerials s.regs.pend).length)] }

/-- R194 and R195: `SET_MTU` stores `min(v, 65544)` and `LINK_UP` sets `LINK`; no output, nothing else changes. -/
def Obligations.TransportStatusIsStored : Prop :=
  ∀ (s : State) (v : U32) (m : Fin 65545), m.val = min v.toNat 65544 →
    exec (.setMtu v) s = .next { s with regs := { s.regs with mtu := m } } ∧
    exec .linkUp s = .next { s with regs := { s.regs with link := true } }

/-- R196: `LINK_DOWN` clears `LINK` and `MTU`, resolves every registration with `LinkDown` in ascending slot order, and
aborts a reassembly in progress; the counters and `TIME` keep their values. -/
def Obligations.LinkDownResolvesEverything : Prop :=
  ∀ s : State, s.regs.reassemblerOk →
    exec .linkDown s = .next { s with
      regs := { s.regs with
        link := false, mtu := 0
        pend := s.regs.pend.map fun q => { q with valid := false }
        rsmState := .idle, rsmBase := 0#32, rsmCount := 0#32, rsmBuf := [] }
      out := s.out ++ ((pendingSerials s.regs.pend).map fun x => .done x .linkDown) ++
        (if s.regs.rsmState = .assembling then [.err (.reassemblyAborted .linkDown)] else []) }

/-- After a reset, `LINK_UP` and `SET_MTU` with at least 10, in either order, are enough for a `SEND` of a recognised command:
it answers with the serial `SERIAL_INIT`. R263 says that both are needed; that they are enough is inferred from the checks of
R172 and the reset values of R39. -/
def Obligations.BootSequenceEnablesSend : Prop :=
  ∀ (s : State) (v timeout : U32) (cmd : U16) (expectsReply : Bool) (p : Bytes),
    s.cfg.wf → 10 ≤ v.toNat → s.cfg.isCommand cmd = true → p.length ≤ 65535 →
    ∃ t : State,
      runEvents [.reset, .linkUp, .setMtu v, .send cmd expectsReply timeout p] s = .next t ∧
      runEvents [.reset, .setMtu v, .linkUp, .send cmd expectsReply timeout p] s = .next t ∧
      t.out.getLast? = some (.rsp (.sent s.cfg.serialInit))

/-! ### The whole machine -/

/-- R58: the four pure operations answer with a value of the configuration and their operands alone and change no register.
-/
def Obligations.PureOperationsChangeNoRegister : Prop :=
  ∀ (c : Cfg) (i : Instr),
    (∃ b, i = .crcCalc b) ∨ (∃ serial cmd p, i = .frameBuild serial cmd p) ∨ (∃ b, i = .frameParse b) ∨
      (∃ mtu base b, i = .frag mtu base b) →
    ∃ v : Rsp, ∀ s : State, s.cfg = c → exec i s = .next { s with out := s.out ++ [.rsp v] }

/-- R236, an inference of the spec: a refused host operation changes nothing at all. -/
def Obligations.RefusedOperationChangesNothing : Prop :=
  ∀ (i : Instr) (s t : State) (new : List Output),
    exec i s = .next t → t.out = s.out ++ new → (∃ o ∈ new, o.isRefusal = true) →
    t = { s with out := s.out ++ new } ∧ new.length = 1

/-- R41, R210: each host event emits exactly one `RSP`; every other event emits none. -/
def Obligations.OneResponsePerHostEvent : Prop :=
  ∀ (i : Instr) (s t : State) (new : List Output),
    exec i s = .next t → t.out = s.out ++ new →
    new.countP Output.isRsp = if hostEvent i = true then 1 else 0

/-- R22, R23, R30, R31, R32: who writes the dispatcher's registers. Only `RESET` and an accepted `SEND` change the two
counters, only `RESET` and `TICK` change `TIME`, only `RESET`, `SET_MTU` and `LINK_DOWN` change `MTU`, only `RESET`,
`LINK_UP` and `LINK_DOWN` change `LINK`. -/
def Obligations.DispatcherRegistersHaveTheirWriters : Prop :=
  ∀ (i : Instr) (s t : State), exec i s = .next t → i ≠ .reset →
    ((∀ cmd expectsReply timeout p, i = .send cmd expectsReply timeout p → ¬ s.canSend cmd expectsReply p) →
      t.regs.serialNext = s.regs.serialNext ∧ t.regs.pktidNext = s.regs.pktidNext) ∧
    (i ≠ .tick → t.regs.time = s.regs.time) ∧
    ((∀ v, i ≠ .setMtu v) → i ≠ .linkDown → t.regs.mtu = s.regs.mtu) ∧
    (i ≠ .linkUp → i ≠ .linkDown → t.regs.link = s.regs.link)
end

