-- ==== Sys2Proof/Laws/Codec.lean ====
section
/-! SUPPORT. The codec's small lemmas: lengths, and how a slice meets a concatenation. -/

namespace Sys2Proof.Machine

@[simp] theorem enc8_length (v : Byte) : (enc8 v).length = 1 := rfl
@[simp] theorem enc16_length (v : U16) : (enc16 v).length = 2 := rfl
@[simp] theorem enc32_length (v : U32) : (enc32 v).length = 4 := rfl
@[simp] theorem enc64_length (v : U64) : (enc64 v).length = 8 := rfl
@[simp] theorem encLen_length (b : Bytes) : (encLen b).length = 4 := rfl
@[simp] theorem responsePayload_length (x : U32) (status : Byte) : (responsePayload x status).length = 5 := rfl

@[simp] theorem rxMessage_length (b : Bytes) : (rxMessage b).length = 5 + b.length := by
  simp [rxMessage]
  omega
@[simp] theorem portMessage_message (c : Cfg) (m : Bytes) : portMessage c (.message m) = m := rfl
@[simp] theorem portMessage_subpacket (c : Cfg) (b : Bytes) : portMessage c (.subpacket b) = rxMessage b := rfl
@[simp] theorem portMessage_frame (c : Cfg) (b : Bytes) :
    portMessage c (.frame b) = rxMessage (subpkt c .whole 0#32 b) := rfl

/-- A sub-packet is `9 + M` bytes (R75). -/
@[simp] theorem subpkt_length (c : Cfg) (st : SpStatus) (id : U32) (d : Bytes) :
    (subpkt c st id d).length = 9 + d.length := by
  simp [subpkt]
  omega

/-- A frame is `14 + L` bytes (R72). -/
@[simp] theorem frameBytes_length (serial : U32) (cmd : U16) (p : Bytes) (k t : U16) :
    (frameBytes serial cmd p k t).length = 14 + p.length := by
  simp [frameBytes]
  omega

@[simp] theorem serialize_length (serial : U32) (cmd : U16) (p : Bytes) :
    (serialize serial cmd p).length = 14 + p.length := by
  simp [serialize, frameBody]
  omega

theorem slice_length (b : Bytes) (i j : Nat) : (slice b i j).length = min (j - i) (b.length - i) := by
  simp [slice]

theorem slice_append_left {a b : Bytes} {i j : Nat} (h : j ≤ a.length) : slice (a ++ b) i j = slice a i j := by
  simp only [slice, List.drop_append, List.take_append]
  rcases Nat.le_total i a.length with hi | hi
  · rw [Nat.sub_eq_zero_of_le hi]; simp; left; omega
  · have h0 : j - i = 0 := by omega
    simp [h0]

theorem slice_append_right {a b : Bytes} {i j : Nat} (h : a.length ≤ i) :
    slice (a ++ b) i j = slice b (i - a.length) (j - a.length) := by
  simp only [slice, List.drop_append, List.drop_eq_nil_of_le h, List.nil_append]
  congr 1
  omega

theorem slice_zero_of_length_le {b : Bytes} {n : Nat} (h : b.length ≤ n) : slice b 0 n = b := by
  simp [slice, h]

/-- Adjacent slices join. -/
theorem slice_append_slice (b : Bytes) {i j k : Nat} (hij : i ≤ j) (hjk : j ≤ k) :
    slice b i j ++ slice b j k = slice b i k := by
  simp only [slice]
  rw [show k - i = (j - i) + (k - j) by omega, List.take_add, List.drop_drop, show i + (j - i) = j by omega]

end Sys2Proof.Machine
end

