-- ==== Sys2Proof/Laws/Crc.lean ====
section
/-! SUPPORT. The CRC register's shift distributes over exclusive-or, and how the checksum meets a concatenation. -/

namespace Sys2Proof.Machine

theorem crcShift_xor (a b : U16) : crcShift (a ^^^ b) = crcShift a ^^^ crcShift b := by
  unfold crcShift
  rw [BitVec.getLsbD_xor]
  cases a.getLsbD 0 <;> cases b.getLsbD 0 <;> simp [BitVec.ushiftRight_xor_distrib]
  · rw [BitVec.xor_assoc]
  · rw [BitVec.xor_assoc, BitVec.xor_assoc, BitVec.xor_comm (b >>> 1)]
  · rw [show (a >>> 1 ^^^ 40961#16) ^^^ (b >>> 1 ^^^ 40961#16) =
        (a >>> 1 ^^^ b >>> 1) ^^^ (40961#16 ^^^ 40961#16) by ac_rfl]
    simp

theorem crcShifts_xor (n : Nat) (a b : U16) : crcShifts n (a ^^^ b) = crcShifts n a ^^^ crcShifts n b := by
  induction n generalizing a b with
  | zero => rfl
  | succ n ih => simp only [crcShifts, crcShift_xor, ih]

theorem crc16_append (a b : Bytes) : crc16 (a ++ b) = b.foldl crcUpdate (crc16 a) := by
  simp [crc16]

end Sys2Proof.Machine
end

