-- ==== Sys2Proof/Laws/State.lean ====
section
/-! SUPPORT. One lemma per field per update: of the records `State`, `Registers`, `Slot` and `Effect`, for every operation that
updates one. All are true by `rfl`; with them no proof unfolds a record update. -/

namespace Sys2Proof.Machine

section
variable (s : State) (e : Effect) (r : Registers) (p : Slot) (a : Arrival) (d : Bytes) (c : Cfg)

/-! ### `State` -/

theorem State.after_eq : s.after e = .next { s with regs := e.regs, out := s.out ++ e.outs } := rfl

@[simp] theorem present_cfg : (present a s).cfg = s.cfg := rfl
@[simp] theorem present_regs : (present a s).regs = s.regs := rfl
@[simp] theorem present_inbox : (present a s).inbox = portMessage s.cfg a :: s.inbox := rfl
@[simp] theorem present_out : (present a s).out = s.out := rfl
@[simp] theorem present_freeCount : (present a s).freeCount = s.freeCount := rfl
@[simp] theorem State.reset_cfg : State.reset.cfg = Config.cfg := rfl
@[simp] theorem State.reset_regs : State.reset.regs = resetRegisters Config.cfg := rfl
@[simp] theorem State.reset_inbox : State.reset.inbox = [] := rfl
@[simp] theorem State.reset_out : State.reset.out = [] := rfl
@[simp] theorem State.reset_freeCount : State.reset.freeCount = 0 := rfl
@[simp] theorem State.withFetchWord_cfg (nbits w : Nat) : (s.withFetchWord nbits w).cfg = s.cfg := rfl
@[simp] theorem State.withFetchWord_regs (nbits w : Nat) : (s.withFetchWord nbits w).regs = s.regs := rfl
@[simp] theorem State.withFetchWord_inbox (nbits w : Nat) : 
    (s.withFetchWord nbits w).inbox = portMessage s.cfg (tableArrival nbits w) :: s.inbox := rfl
@[simp] theorem State.withFetchWord_out (nbits w : Nat) : (s.withFetchWord nbits w).out = s.out := rfl
@[simp] theorem State.withFetchWord_freeCount (nbits w : Nat) : (s.withFetchWord nbits w).freeCount = s.freeCount := rfl

/-! ### `Registers` -/

@[simp] theorem resetRegisters_serialNext : (resetRegisters c).serialNext = c.serialInit := rfl
@[simp] theorem resetRegisters_pktidNext : (resetRegisters c).pktidNext = c.pktidInit := rfl
@[simp] theorem resetRegisters_mtu : (resetRegisters c).mtu = 0 := rfl
@[simp] theorem resetRegisters_link : (resetRegisters c).link = false := rfl
@[simp] theorem resetRegisters_time : (resetRegisters c).time = 0#64 := rfl
@[simp] theorem resetRegisters_pend : (resetRegisters c).pend = List.replicate c.nPending freeSlot := rfl
@[simp] theorem resetRegisters_rsmState : (resetRegisters c).rsmState = .idle := rfl
@[simp] theorem resetRegisters_rsmBase : (resetRegisters c).rsmBase = 0#32 := rfl
@[simp] theorem resetRegisters_rsmCount : (resetRegisters c).rsmCount = 0#32 := rfl
@[simp] theorem resetRegisters_rsmBuf : (resetRegisters c).rsmBuf = [] := rfl
@[simp] theorem clearReassembly_serialNext : (clearReassembly r).serialNext = r.serialNext := rfl
@[simp] theorem clearReassembly_pktidNext : (clearReassembly r).pktidNext = r.pktidNext := rfl
@[simp] theorem clearReassembly_mtu : (clearReassembly r).mtu = r.mtu := rfl
@[simp] theorem clearReassembly_link : (clearReassembly r).link = r.link := rfl
@[simp] theorem clearReassembly_time : (clearReassembly r).time = r.time := rfl
@[simp] theorem clearReassembly_pend : (clearReassembly r).pend = r.pend := rfl
@[simp] theorem clearReassembly_rsmState : (clearReassembly r).rsmState = .idle := rfl
@[simp] theorem clearReassembly_rsmBase : (clearReassembly r).rsmBase = 0#32 := rfl
@[simp] theorem clearReassembly_rsmCount : (clearReassembly r).rsmCount = 0#32 := rfl
@[simp] theorem clearReassembly_rsmBuf : (clearReassembly r).rsmBuf = [] := rfl
@[simp] theorem appendChunk_serialNext : (appendChunk d r).serialNext = r.serialNext := rfl
@[simp] theorem appendChunk_pktidNext : (appendChunk d r).pktidNext = r.pktidNext := rfl
@[simp] theorem appendChunk_mtu : (appendChunk d r).mtu = r.mtu := rfl
@[simp] theorem appendChunk_link : (appendChunk d r).link = r.link := rfl
@[simp] theorem appendChunk_time : (appendChunk d r).time = r.time := rfl
@[simp] theorem appendChunk_pend : (appendChunk d r).pend = r.pend := rfl
@[simp] theorem appendChunk_rsmState : (appendChunk d r).rsmState = r.rsmState := rfl
@[simp] theorem appendChunk_rsmBase : (appendChunk d r).rsmBase = r.rsmBase := rfl
@[simp] theorem appendChunk_rsmCount : (appendChunk d r).rsmCount = r.rsmCount + 1#32 := rfl
@[simp] theorem appendChunk_rsmBuf : (appendChunk d r).rsmBuf = r.rsmBuf ++ [d] := rfl

/-! ### `Slot` -/

@[simp] theorem Slot.release_valid : p.release.valid = false := rfl
@[simp] theorem Slot.release_serial : p.release.serial = p.serial := rfl
@[simp] theorem Slot.release_issuedAt : p.release.issuedAt = p.issuedAt := rfl
@[simp] theorem Slot.release_timeout : p.release.timeout = p.timeout := rfl
@[simp] theorem freeSlot_valid : freeSlot.valid = false := rfl
@[simp] theorem sendSlot_valid (t : U32) : (sendSlot t r).valid = true := rfl
@[simp] theorem sendSlot_serial (t : U32) : (sendSlot t r).serial = r.serialNext := rfl
@[simp] theorem sendSlot_issuedAt (t : U32) : (sendSlot t r).issuedAt = r.time := rfl
@[simp] theorem sendSlot_timeout (t : U32) : (sendSlot t r).timeout = t := rfl

/-! ### `Effect` -/

section
variable (v : Rsp) (x : Error) (why : AbortReason) (o : Completion) (y : U32) (q : Slot → Bool) (f : Registers → Effect)

@[simp] theorem silent_regs : (silent r).regs = r := rfl
@[simp] theorem silent_outs : (silent r).outs = [] := rfl
@[simp] theorem respond_regs : (respond v r).regs = r := rfl
@[simp] theorem respond_outs : (respond v r).outs = [.rsp v] := rfl
@[simp] theorem refuse_regs : (refuse x r).regs = r := rfl
@[simp] theorem refuse_outs : (refuse x r).outs = [.rsp (.err x)] := rfl
@[simp] theorem raise_regs : (raise x r).regs = r := rfl
@[simp] theorem raise_outs : (raise x r).outs = [.err x] := rfl
@[simp] theorem abort_regs : (abort why r).regs = clearReassembly r := rfl
@[simp] theorem abort_outs : (abort why r).outs = [.err (.reassemblyAborted why)] := rfl
@[simp] theorem Effect.andThen_regs : (e.andThen f).regs = (f e.regs).regs := rfl
@[simp] theorem Effect.andThen_outs : (e.andThen f).outs = e.outs ++ (f e.regs).outs := rfl
@[simp] theorem resolve_regs : (resolve y o r).regs = { r with pend := releaseFirst (Slot.holds y) r.pend } := rfl
@[simp] theorem resolve_outs : (resolve y o r).outs = [.done y o] := rfl
@[simp] theorem resolveAll_regs : (resolveAll q o r).regs = { r with pend := releaseAll q r.pend } := rfl
@[simp] theorem resolveAll_outs : (resolveAll q o r).outs = (r.pend.filter q).map fun p => .done p.serial o := rfl

end
end
end Sys2Proof.Machine
end

