-- ==== Sys2Proof/Laws/Exec.lean ====
section
/-! SUPPORT. What an instruction does, said once: every meaning is `State.after` of an effect on the registers; and how a trace
runs. -/

namespace Sys2Proof.Machine

/-- What each instruction does to the registers and what it emits, apart from the state around them. -/
def effectOf (c : Cfg) (i : Instr) (r : Registers) : Effect :=
  match i with
  | .reset => respond .ack (resetRegisters c)
  | .crcCalc b => respond (.crc (crc16 b)) r
  | .frameBuild serial cmd p => respond (buildFrame c serial cmd p) r
  | .frameParse b => respond (frameResult c b) r
  | .frag mtu base b => respond (fragResult c mtu.toNat base b) r
  | .send cmd expectsReply timeout p => send c cmd expectsReply timeout p r
  | .cancel serial => cancelOne serial r
  | .cancelAll => cancelEvery r
  | .setMtu v => silent { r with mtu := clampMtu v }
  | .linkUp => silent { r with link := true }
  | .linkDown => disconnect r
  | .rx b => receive c b r
  | .tick => tickEffect r
  | .frameCmd serial cmd p k t => deliver c (frameBytes serial cmd p k t) r
  | .frameResponse serial cmd x st k t => deliver c (frameBytes serial cmd (responsePayload x st) k t) r
  | .spNone _ d => rxWhole c d r
  | .spStart id d => rxStart c id d r
  | .spMiddle id d => rxMiddle c id d r
  | .spEnd id d => rxLast c id d r

theorem exec_eq_after (i : Instr) (s : State) : exec i s = s.after (effectOf s.cfg i s.regs) := by cases i <;> rfl

theorem eq_of_exec_next {i : Instr} {s t : State} (h : exec i s = .next t) :
    t = { s with regs := (effectOf s.cfg i s.regs).regs, out := s.out ++ (effectOf s.cfg i s.regs).outs } := by
  rw [exec_eq_after, State.after_eq] at h
  cases h
  rfl

theorem outs_of_exec_next {i : Instr} {s t : State} {new : List Output} (h : exec i s = .next t)
    (ho : t.out = s.out ++ new) : new = (effectOf s.cfg i s.regs).outs := by
  have := eq_of_exec_next h
  subst this
  simpa using ho.symm

/-! ### A step -/

/-- A message that is no operation changes no register: it is refused and noticed, with one byte. -/
theorem reject_cases (m : Bytes) (s : State) :
    ∃ (op : Byte) (n : Nat), reject m s = .next { s with
      out := s.out ++ [.rsp (.err (.illegalOp op)), .err (.illegalOp op)]
      freeCount := n } := by
  cases m with
  | nil => exact ⟨_, _, rfl⟩
  | cons op body => exact ⟨op, s.freeCount, rfl⟩

/-- All a step can do: stay idle, run the operation of the next message, or refuse that message. -/
theorem step_cases (s : State) :
    (s.inbox = [] ∧ step s = .next s) ∨
    (∃ m rest i, s.inbox = m :: rest ∧ decodeMessage m = some i ∧ step s = exec i { s with inbox := rest }) ∨
    (∃ m rest, s.inbox = m :: rest ∧ decodeMessage m = none ∧ step s = reject m { s with inbox := rest }) := by
  cases h : s.inbox with
  | nil => exact .inl ⟨rfl, by simp [step, fetch, h]⟩
  | cons m rest =>
    cases hd : decodeMessage m with
    | some i => exact .inr (.inl ⟨m, rest, i, rfl, hd, by simp [step, fetch, h, hd]⟩)
    | none => exact .inr (.inr ⟨m, rest, rfl, hd, by simp [step, fetch, h, hd]⟩)

/-! ### Traces -/

theorem runEvents_cons {i : Instr} {es : List Instr} {s t : State} (h : exec i s = .next t) :
    runEvents (i :: es) s = runEvents es t := by
  simp only [runEvents, h]

theorem runEvents_append {es es' : List Instr} {s t : State} (h : runEvents es s = .next t) :
    runEvents (es ++ es') s = runEvents es' t := by
  induction es generalizing s with
  | nil => cases h; rfl
  | cons i es ih =>
    have hi := exec_eq_after i s
    rw [List.cons_append, runEvents_cons hi]
    rw [runEvents_cons hi] at h
    exact ih h

theorem runEvents_total (es : List Instr) (s : State) : ∃ t, runEvents es s = .next t := by
  induction es generalizing s with
  | nil => exact ⟨s, rfl⟩
  | cons i es ih => rw [runEvents_cons (exec_eq_after i s)]; exact ih _

end Sys2Proof.Machine
end

