-- ==== Sys2Proof/Laws/Ops.lean ====
section
/-! SUPPORT. One lemma per shared operation that says what it can do: the reassembler's transitions, the pending-correlation
table, delivering a frame, and the checks of `SEND`. -/

namespace Sys2Proof.Machine

/-! ### The reassembler -/

theorem Registers.rsmState_cases (r : Registers) : r.rsmState = .idle ∨ r.rsmState = .assembling := by
  cases r.rsmState <;> simp

section
variable {c : Cfg} {id : U32} {d : Bytes} {r : Registers}

theorem openReassembly_of_fits (h : d.length ≤ c.rsmBufMax) :
    openReassembly c id d r =
      silent { r with rsmBase := id, rsmBuf := [d], rsmCount := 1#32, rsmState := .assembling } := by
  unfold openReassembly
  rw [if_neg (by omega)]

theorem openReassembly_of_overflow (h : c.rsmBufMax < d.length) : openReassembly c id d r = abort .overflow r := by
  unfold openReassembly
  rw [if_pos h]

theorem rxStart_of_idle (h : r.rsmState = .idle) : rxStart c id d r = openReassembly c id d r := by
  unfold rxStart
  rw [h]

theorem rxStart_of_assembling (h : r.rsmState = .assembling) :
    rxStart c id d r = (abort .startWhileAssembling r).andThen (openReassembly c id d) := by
  unfold rxStart
  rw [h]

theorem rxMiddle_of_idle (h : r.rsmState = .idle) :
    rxMiddle c id d r = raise (.reassemblyAborted .noReassembly) r := by
  unfold rxMiddle
  rw [h]

theorem rxMiddle_of_unexpected (h : r.rsmState = .assembling) (hi : id ≠ expectedId r) :
    rxMiddle c id d r = abort (.unexpectedId (expectedId r) id) r := by
  unfold rxMiddle
  rw [h]
  simp only [if_pos hi]

theorem rxMiddle_of_overflow (h : r.rsmState = .assembling) (hi : id = expectedId r)
    (hm : c.rsmBufMax < r.rsmLen + d.length) : rxMiddle c id d r = abort .overflow r := by
  unfold rxMiddle
  rw [h]
  simp only [if_neg (not_not.2 hi), if_pos hm]

theorem rxMiddle_of_fits (h : r.rsmState = .assembling) (hi : id = expectedId r)
    (hm : r.rsmLen + d.length ≤ c.rsmBufMax) : rxMiddle c id d r = silent (appendChunk d r) := by
  unfold rxMiddle
  rw [h]
  simp only [if_neg (not_not.2 hi), if_neg (Nat.not_lt.2 hm)]

theorem rxLast_of_idle (h : r.rsmState = .idle) :
    rxLast c id d r = raise (.reassemblyAborted .noReassembly) r := by
  unfold rxLast
  rw [h]

theorem rxLast_of_unexpected (hc : c.rsmEndChecksId = true) (h : r.rsmState = .assembling) (hi : id ≠ expectedId r) :
    rxLast c id d r = abort (.unexpectedId (expectedId r) id) r := by
  unfold rxLast
  rw [h]
  simp only [if_pos (And.intro hc hi)]

theorem rxLast_of_overflow (h : r.rsmState = .assembling) (hi : id = expectedId r)
    (hm : c.rsmBufMax < r.rsmLen + d.length) : rxLast c id d r = abort .overflow r := by
  unfold rxLast
  rw [h]
  simp only [if_neg (fun x : _ ∧ id ≠ expectedId r => x.2 hi), if_pos hm]

theorem rxLast_of_fits (h : r.rsmState = .assembling) (hi : id = expectedId r)
    (hm : r.rsmLen + d.length ≤ c.rsmBufMax) :
    rxLast c id d r = deliver c (r.rsmBuf.flatten ++ d) (clearReassembly r) := by
  unfold rxLast
  rw [h]
  simp only [if_neg (fun x : _ ∧ id ≠ expectedId r => x.2 hi), if_neg (Nat.not_lt.2 hm)]

end

/-- A reassembler in its normal form of `Idle` is cleared already. -/
theorem clearReassembly_of_idle {r : Registers} (h : r.reassemblerOk) (hs : r.rsmState = .idle) :
    clearReassembly r = r := by
  obtain ⟨h1, h2, h3⟩ := h.1 hs
  unfold clearReassembly
  rw [← h1, ← hs]
  rcases r with ⟨⟩
  simp_all

/-! ### The pending-correlation table -/

theorem holds_iff {x : U32} {p : Slot} : Slot.holds x p = true ↔ p.valid = true ∧ p.serial = x := by
  simp [Slot.holds]

theorem mem_pendingSerials {x : U32} {ps : List Slot} :
    x ∈ pendingSerials ps ↔ ∃ p ∈ ps, p.valid = true ∧ p.serial = x := by
  simp [pendingSerials, and_assoc]

theorem isPending_iff {x : U32} {r : Registers} : isPending x r = true ↔ x ∈ pendingSerials r.pend := by
  rw [mem_pendingSerials]
  simp [isPending, holds_iff]

theorem pendingSerials_cons (p : Slot) (ps : List Slot) :
    pendingSerials (p :: ps) = (if p.valid then [p.serial] else []) ++ pendingSerials ps := by
  unfold pendingSerials
  by_cases h : p.valid = true <;> simp [h]

theorem pendingSerials_eq_nil {ps : List Slot} : pendingSerials ps = [] ↔ ∀ p ∈ ps, p.valid = false := by
  simp [pendingSerials]

@[simp] theorem releaseFirst_length (q : Slot → Bool) (ps : List Slot) : (releaseFirst q ps).length = ps.length := by
  induction ps with
  | nil => rfl
  | cons p ps ih => unfold releaseFirst; split <;> simp [ih]

@[simp] theorem releaseAll_length (q : Slot → Bool) (ps : List Slot) : (releaseAll q ps).length = ps.length := by
  simp [releaseAll]

@[simp] theorem register_length (new : Slot) (ps : List Slot) : (register new ps).length = ps.length := by
  induction ps with
  | nil => rfl
  | cons p ps ih => unfold register; split <;> simp [ih]

/-- Releasing the first slot that holds a serial only takes serials away. -/
theorem pendingSerials_releaseFirst (q : Slot → Bool) (ps : List Slot) :
    (pendingSerials (releaseFirst q ps)).Sublist (pendingSerials ps) := by
  induction ps with
  | nil => exact .slnil
  | cons p ps ih =>
    unfold releaseFirst
    split
    · rw [pendingSerials_cons, pendingSerials_cons]; simp
    · rw [pendingSerials_cons, pendingSerials_cons p ps]
      exact List.Sublist.append (List.Sublist.refl _) ih

/-- Releasing every slot that satisfies a test only takes serials away. -/
theorem pendingSerials_releaseAll (q : Slot → Bool) (ps : List Slot) :
    (pendingSerials (releaseAll q ps)).Sublist (pendingSerials ps) := by
  induction ps with
  | nil => exact .slnil
  | cons p ps ih =>
    have h : releaseAll q (p :: ps) = (if q p then p.release else p) :: releaseAll q ps := rfl
    rw [h, pendingSerials_cons, pendingSerials_cons p ps]
    refine List.Sublist.append ?_ ih
    split <;> simp

/-- Where no two registrations share a serial, releasing the first that holds one is releasing all that do. -/
theorem releaseFirst_holds {x : U32} {ps : List Slot} (h : (pendingSerials ps).Nodup) :
    releaseFirst (Slot.holds x) ps = releaseAll (Slot.holds x) ps := by
  induction ps with
  | nil => rfl
  | cons p ps ih =>
    rw [pendingSerials_cons] at h
    have he : releaseAll (Slot.holds x) (p :: ps) =
        (if Slot.holds x p then p.release else p) :: releaseAll (Slot.holds x) ps := rfl
    rw [he]
    unfold releaseFirst
    by_cases hp : Slot.holds x p = true
    · rw [if_pos hp, if_pos hp]
      congr 1
      unfold releaseAll
      conv_lhs => rw [← List.map_id ps]
      apply List.map_congr_left
      intro q hq
      rw [if_neg]
      · rfl
      · intro hh
        obtain ⟨hv, hs⟩ := holds_iff.1 hp
        rw [if_pos hv] at h
        simp only [List.cons_append, List.nil_append, List.nodup_cons, mem_pendingSerials] at h
        exact h.1 ⟨q, hq, (holds_iff.1 hh).1, (holds_iff.1 hh).2.trans hs.symm⟩
    · rw [if_neg hp, if_neg hp, ih (List.nodup_append.1 h).2.1]

/-- Registering takes the lowest free slot. -/
theorem register_eq_set {new : Slot} {ps : List Slot} (h : ∃ p ∈ ps, p.valid = false) :
    ∃ j : Nat, (∃ p, ps[j]? = some p ∧ p.valid = false) ∧
      (∀ k < j, ∀ p, ps[k]? = some p → p.valid = true) ∧ register new ps = ps.set j new := by
  induction ps with
  | nil => simp at h
  | cons p ps ih =>
    by_cases hp : p.valid = true
    · have h' : ∃ q ∈ ps, q.valid = false := by
        obtain ⟨q, hq, hv⟩ := h
        rcases List.mem_cons.1 hq with rfl | hq
        · rw [hp] at hv; cases hv
        · exact ⟨q, hq, hv⟩
      obtain ⟨j, h1, h2, h3⟩ := ih h'
      refine ⟨j + 1, h1, ?_, by simp [register, hp, h3]⟩
      intro k hk q hq
      rcases k with _ | k
      · simp at hq; rw [← hq]; exact hp
      · exact h2 k (by omega) q (by simpa using hq)
    · exact ⟨0, ⟨p, rfl, by simpa using hp⟩, by intro k hk; omega, by simp [register, hp]⟩

/-- Registering adds the new serial and keeps the others. -/
theorem pendingSerials_register {new : Slot} {ps : List Slot} (hv : new.valid = true) (h : ∃ p ∈ ps, p.valid = false) :
    (pendingSerials (register new ps)).Perm (new.serial :: pendingSerials ps) := by
  induction ps with
  | nil => simp at h
  | cons p ps ih =>
    unfold register
    by_cases hp : p.valid = true
    · rw [if_pos hp, pendingSerials_cons, pendingSerials_cons p ps, if_pos hp]
      have h' : ∃ q ∈ ps, q.valid = false := by
        obtain ⟨q, hq, hv⟩ := h
        rcases List.mem_cons.1 hq with rfl | hq
        · rw [hp] at hv; cases hv
        · exact ⟨q, hq, hv⟩
      exact ((ih h').cons p.serial).trans (List.Perm.swap _ _ _)
    · rw [if_neg hp, pendingSerials_cons, pendingSerials_cons p ps, if_neg hp, if_pos hv]
      simp

/-! ### Delivering a frame -/

theorem takeResponse_cases (x : Response) (r : Registers) :
    (isPending x.respondedSerial r = true ∧
      takeResponse x r = resolve x.respondedSerial (.reply x.status) r) ∨
    (isPending x.respondedSerial r = false ∧
      takeResponse x r = raise (.staleReply x.respondedSerial) r) := by
  unfold takeResponse
  cases isPending x.respondedSerial r <;> simp

/-- Delivered bytes are dropped with a notice, forwarded, or taken as a response. -/
theorem deliver_cases (c : Cfg) (b : Bytes) (r : Registers) :
    (∃ e, parseFrame c b = .error e ∧ deliver c b r = raise e r) ∨
    (∃ f, parseFrame c b = .ok f ∧ deliver c b r = forward f r) ∨
    (∃ f x, parseFrame c b = .ok f ∧ c.isReplyBearing f.command = true ∧ asResponse f = some x ∧
      deliver c b r = takeResponse x r) := by
  unfold deliver
  cases h : parseFrame c b with
  | error e => simp
  | ok f =>
    right
    unfold route
    by_cases hr : c.isReplyBearing f.command = true
    · cases ha : asResponse f with
      | none => left; exact ⟨f, rfl, by simp [hr, ha]⟩
      | some x => right; exact ⟨f, x, rfl, hr, ha, by simp [hr, ha]⟩
    · left; exact ⟨f, rfl, by simp [hr]⟩

/-! ### Sending -/

/-- No check of `SEND` fails exactly where `State.canSend` says so. -/
theorem sendCheck_eq_none (s : State) (cmd : U16) (expectsReply : Bool) (p : Bytes) :
    sendCheck s.cfg cmd expectsReply p s.regs = none ↔ s.canSend cmd expectsReply p := by
  unfold sendCheck State.canSend cannotRegister
  by_cases h1 : s.regs.link = true <;> by_cases h2 : s.cfg.isCommand cmd = true <;>
    rcases Nat.lt_or_ge 65535 p.length with h3 | h3 <;> rcases Nat.lt_or_ge s.regs.mtu.val 10 with h4 | h4 <;>
    cases expectsReply <;>
    simp [h1, h2, h3, h4, Nat.not_lt.2, Nat.not_le.2, Slot.holds, Bool.not_eq_true]

end Sys2Proof.Machine
end

