-- ==== Sys2Proof/Laws/PerInstr.lean ====
section
/-! SUPPORT. The family `EncodedLength`: how many bytes the encoding of each instruction has (30_encoding.md R86, R72, R75). One
lemma per constructor of `Instr`. -/

namespace Sys2Proof.Laws

/-- The bytes of an arrival. -/
def arrivalBytes : Arrival → Bytes
  | .message b => b
  | .subpacket b => b
  | .frame b => b

/-- The length the layouts of R86, R71, R74 and R75 give an instruction. -/
def encodedLength : Instr → Nat
  | .reset => 1
  | .crcCalc b => 5 + b.length
  | .frameBuild _ _ p => 11 + p.length
  | .frameParse b => 5 + b.length
  | .frag _ _ b => 13 + b.length
  | .send _ _ _ p => 12 + p.length
  | .cancel _ => 5
  | .cancelAll => 1
  | .setMtu _ => 5
  | .linkUp => 1
  | .linkDown => 1
  | .rx b => 5 + b.length
  | .tick => 1
  | .frameCmd _ _ p _ _ => 14 + p.length
  | .frameResponse _ _ _ _ _ _ => 19
  | .spNone _ d => 9 + d.length
  | .spStart _ d => 9 + d.length
  | .spMiddle _ d => 9 + d.length
  | .spEnd _ d => 9 + d.length

/-- The encoding of an instruction has the length its layout gives, under every configuration. -/
def EncodedLength.Statement (i : Instr) : Prop :=
  ∀ c : Cfg, (arrivalBytes (encode c i)).length = encodedLength i

theorem EncodedLength.reset : EncodedLength.Statement .reset := fun _ => rfl

theorem EncodedLength.crcCalc (b : Bytes) : EncodedLength.Statement (.crcCalc b) := by
  intro c; simp [encode, arrivalBytes, encodedLength]; omega

theorem EncodedLength.frameBuild (serial : U32) (cmd : U16) (p : Bytes) :
    EncodedLength.Statement (.frameBuild serial cmd p) := by
  intro c; simp [encode, arrivalBytes, encodedLength]; omega

theorem EncodedLength.frameParse (b : Bytes) : EncodedLength.Statement (.frameParse b) := by
  intro c; simp [encode, arrivalBytes, encodedLength]; omega

theorem EncodedLength.frag (mtu base : U32) (b : Bytes) : EncodedLength.Statement (.frag mtu base b) := by
  intro c; simp [encode, arrivalBytes, encodedLength]; omega

theorem EncodedLength.send (cmd : U16) (expectsReply : Bool) (timeout : U32) (p : Bytes) :
    EncodedLength.Statement (.send cmd expectsReply timeout p) := by
  intro c; simp [encode, arrivalBytes, encodedLength]; omega

theorem EncodedLength.cancel (serial : U32) : EncodedLength.Statement (.cancel serial) := fun _ => rfl

theorem EncodedLength.cancelAll : EncodedLength.Statement .cancelAll := fun _ => rfl

theorem EncodedLength.setMtu (v : U32) : EncodedLength.Statement (.setMtu v) := fun _ => rfl

theorem EncodedLength.linkUp : EncodedLength.Statement .linkUp := fun _ => rfl

theorem EncodedLength.linkDown : EncodedLength.Statement .linkDown := fun _ => rfl

theorem EncodedLength.rx (b : Bytes) : EncodedLength.Statement (.rx b) := by
  intro c; simp [encode, rxMessage, arrivalBytes, encodedLength]; omega

theorem EncodedLength.tick : EncodedLength.Statement .tick := fun _ => rfl

theorem EncodedLength.frameCmd (serial : U32) (command : U16) (payload : Bytes) (checksum terminator : U16) :
    EncodedLength.Statement (.frameCmd serial command payload checksum terminator) :=
  fun _ => Machine.frameBytes_length serial command payload checksum terminator

theorem EncodedLength.frameResponse (serial : U32) (command : U16) (respondedSerial : U32) (status : Byte)
    (checksum terminator : U16) :
    EncodedLength.Statement (.frameResponse serial command respondedSerial status checksum terminator) :=
  fun _ => rfl

theorem EncodedLength.spNone (packetId : U32) (data : Bytes) : EncodedLength.Statement (.spNone packetId data) :=
  fun c => Machine.subpkt_length c .whole packetId data

theorem EncodedLength.spStart (packetId : U32) (data : Bytes) : EncodedLength.Statement (.spStart packetId data) :=
  fun c => Machine.subpkt_length c .start packetId data

theorem EncodedLength.spMiddle (packetId : U32) (data : Bytes) : EncodedLength.Statement (.spMiddle packetId data) :=
  fun c => Machine.subpkt_length c .middle packetId data

theorem EncodedLength.spEnd (packetId : U32) (data : Bytes) : EncodedLength.Statement (.spEnd packetId data) :=
  fun c => Machine.subpkt_length c .last packetId data

end Sys2Proof.Laws
end

