-- ==== Sys2Proof/Tests/Slice0.lean ====
section
/-! SUPPORT. The model's own tests. Expected values come from spec/: the table of 40_crc16.md R101, the vectors and programs of
95_test_vectors.md (named by their ids), and words written out from the layouts of 30_encoding.md. The witnesses at the end show
that the hypotheses of each obligation can be met. -/

namespace Sys2Proof.Tests
open Sys2Proof.Machine

/-! ### Small states -/

/-- `CFG_TEST` of 95_test_vectors.md section 1. -/
def cfgTest : Cfg where
  cmdSet := [0x0101#16, 0x0201#16]
  replyBearing := [0x0201#16]
  stNone := 0x00#8
  stStart := 0x01#8
  stMiddle := 0x02#8
  stEnd := 0x03#8
  rsSuccess := 0x00#8
  rsInProgress := 0x01#8
  rsFailed := 0x02#8
  rsCrcError := 0x03#8
  serialInit := 0#32
  pktidInit := 0#32
  nPending := 1
  rsmBufMax := 65549
  rsmEndChecksId := true
  tickPeriod := 0

/-- A state under a configuration with given registers. -/
def stateOf (c : Cfg) (r : Registers) : State := { cfg := c, regs := r, inbox := [], out := [], freeCount := 0 }

/-- The reset state under `CFG_TEST`. -/
def start : State := stateOf cfgTest (resetRegisters cfgTest)

/-- Connected, with `MTU = 20`. -/
def linked : State := stateOf cfgTest { resetRegisters cfgTest with link := true, mtu := 20 }

/-- A registration of a serial, made at `TIME = 10` with a timeout of 3 ticks (V61). -/
def slotOf (serial : U32) : Slot := { valid := true, serial := serial, issuedAt := 10#64, timeout := 3#32 }

/-- Connected, `TIME = 10`, one registration, the table full. -/
def pending (serial : U32) : State :=
  stateOf cfgTest { resetRegisters cfgTest with
    link := true, mtu := 185, time := 10#64, serialNext := 1#32, pend := [slotOf serial] }

/-- Assembling after `sp0` of V33, with a registration. -/
def assembling : State :=
  stateOf cfgTest { (pending 0#32).regs with
    rsmState := .assembling, rsmBase := 16#32, rsmCount := 1#32
    rsmBuf := [[0xAA#8, 0x55#8, 0x00#8, 0x00#8, 0x00#8, 0x03#8, 0x00#8, 0x14#8, 0x01#8, 0x01#8, 0xA0#8]] }

/-- `assembling` with room for 12 bytes only. -/
def crowded : State := { assembling with cfg := { cfgTest with rsmBufMax := 12 } }

/-- A state with one arrival's message presented. -/
def arriving (a : Arrival) : State := present a start

/-- What a step emitted, from a state that had emitted nothing. -/
def outsOf : Host.Outcome State Fault Refusal → List Output
  | .next t => t.out
  | .fault _ => []
  | .refused _ => []

/-- The next state, if the step answers one. -/
def resultOf : Host.Outcome State Fault Refusal → Option State
  | .next t => some t
  | .fault _ => none
  | .refused _ => none

theorem eq_next_of_resultOf {o : Host.Outcome State Fault Refusal} {t : State} (h : resultOf o = some t) : o = .next t := by
  cases o <;> simp_all [resultOf]

/-- The registers after a step. -/
def regsOf : Host.Outcome State Fault Refusal → Option Registers
  | .next t => some t.regs
  | .fault _ => none
  | .refused _ => none

/-- `F1`, 17 bytes. -/
def f1 : Bytes := [0xAA#8, 0x55#8, 0x00#8, 0x00#8, 0x00#8, 0x01#8, 0x00#8, 0x03#8, 0x01#8, 0x01#8, 0x11#8, 0x22#8, 0x33#8, 0x14#8, 0xA1#8, 0x0D#8, 0x0A#8]

/-- `RP5`: the reply to serial 0 with status `RS_FAILED`. -/
def rp5 : Bytes := [0xAA#8, 0x55#8, 0x00#8, 0x00#8, 0x00#8, 0x05#8, 0x00#8, 0x05#8, 0x02#8, 0x01#8, 0x00#8, 0x00#8, 0x00#8, 0x00#8, 0x02#8, 0xD5#8, 0x0C#8, 0x0D#8, 0x0A#8]

/-! ### WellFormed: each check refuses an ill-formed term -/

theorem test_wf_refuses_long_operand :
    ([.crcCalc (List.replicate (2 ^ 32) 0#8), .frameBuild 0#32 0#16 (List.replicate (2 ^ 32) 0#8),
      .frameParse (List.replicate (2 ^ 32) 0#8), .frag 20#32 0#32 (List.replicate (2 ^ 32) 0#8),
      .send 0#16 false 0#32 (List.replicate (2 ^ 32) 0#8), .rx (List.replicate (2 ^ 32) 0#8)] : List Instr).map
        (Instr.wellFormed cfgTest) = List.replicate 6 false := by
  simp only [List.map, Instr.wellFormed, fitsMessage, List.length_replicate]
  rfl

theorem test_wf_refuses_long_unit :
    ([.frameCmd 0#32 0x0101#16 (List.replicate (2 ^ 16) 0#8) 0#16 0#16, .spNone 0#32 (List.replicate (2 ^ 16) 0#8),
      .spStart 0#32 (List.replicate (2 ^ 16) 0#8), .spMiddle 0#32 (List.replicate (2 ^ 16) 0#8),
      .spEnd 0#32 (List.replicate (2 ^ 16) 0#8)] : List Instr).map
        (Instr.wellFormed cfgTest) = List.replicate 5 false := by
  simp only [List.map, Instr.wellFormed, fitsUnit, List.length_replicate]
  rfl

theorem test_wf_refuses_response_as_command :
    Instr.wellFormed cfgTest (.frameCmd 0#32 0x0201#16 (List.replicate 5 0#8) 0#16 0x0D0A#16) = false := by decide

theorem test_wf_refuses_command_as_response :
    Instr.wellFormed cfgTest (.frameResponse 0#32 0x0101#16 0#32 0#8 0#16 0x0D0A#16) = false := by decide

/-! ### Decode: one word of each constructor, written out from its layout -/

theorem test_decode_reset :
    decode cfgTest (.message [0x01#8]) = .ok (.reset) := by rfl

theorem test_decode_crcCalc :
    decode cfgTest (.message [0x10#8, 0x00#8, 0x00#8, 0x00#8, 0x02#8, 0xAA#8, 0x55#8]) = .ok (.crcCalc [0xAA#8, 0x55#8]) := by rfl

theorem test_decode_frameBuild :
    decode cfgTest (.message [0x11#8, 0x00#8, 0x00#8, 0x00#8, 0x01#8, 0x01#8, 0x01#8, 0x00#8, 0x00#8, 0x00#8, 0x03#8, 0x11#8, 0x22#8, 0x33#8]) = .ok (.frameBuild 1#32 0x0101#16 [0x11#8, 0x22#8, 0x33#8]) := by rfl

theorem test_decode_frameParse :
    decode cfgTest (.message [0x12#8, 0x00#8, 0x00#8, 0x00#8, 0x03#8, 0xAA#8, 0x55#8, 0x00#8]) = .ok (.frameParse [0xAA#8, 0x55#8, 0x00#8]) := by rfl

theorem test_decode_frag :
    decode cfgTest (.message [0x13#8, 0x00#8, 0x00#8, 0x00#8, 0x14#8, 0x00#8, 0x00#8, 0x00#8, 0x05#8, 0x00#8, 0x00#8, 0x00#8, 0x02#8, 0xAA#8, 0x55#8]) = .ok (.frag 20#32 5#32 [0xAA#8, 0x55#8]) := by rfl

theorem test_decode_send :
    decode cfgTest (.message [0x20#8, 0x01#8, 0x02#8, 0x01#8, 0x00#8, 0x00#8, 0x00#8, 0x03#8, 0x00#8, 0x00#8, 0x00#8, 0x01#8, 0x07#8]) = .ok (.send 0x0102#16 true 3#32 [0x07#8]) := by rfl

theorem test_decode_cancel :
    decode cfgTest (.message [0x21#8, 0x01#8, 0x02#8, 0x03#8, 0x04#8]) = .ok (.cancel 0x01020304#32) := by rfl

theorem test_decode_cancelAll :
    decode cfgTest (.message [0x22#8]) = .ok (.cancelAll) := by rfl

theorem test_decode_setMtu :
    decode cfgTest (.message [0x30#8, 0x00#8, 0x00#8, 0x00#8, 0xB9#8]) = .ok (.setMtu 185#32) := by rfl

theorem test_decode_linkUp :
    decode cfgTest (.message [0x31#8]) = .ok (.linkUp) := by rfl

theorem test_decode_linkDown :
    decode cfgTest (.message [0x32#8]) = .ok (.linkDown) := by rfl

theorem test_decode_rx :
    decode cfgTest (.message [0x33#8, 0x00#8, 0x00#8, 0x00#8, 0x03#8, 0xFA#8, 0xF5#8, 0x00#8]) = .ok (.rx [0xFA#8, 0xF5#8, 0x00#8]) := by rfl

theorem test_decode_tick :
    decode cfgTest (.message [0x40#8]) = .ok (.tick) := by rfl

theorem test_decode_frameCmd :
    decode cfgTest (.frame [0xAA#8, 0x55#8, 0x00#8, 0x00#8, 0x00#8, 0x01#8, 0x00#8, 0x03#8, 0x01#8, 0x01#8, 0x11#8, 0x22#8, 0x33#8, 0x14#8, 0xA1#8, 0x0D#8, 0x0A#8]) = .ok (.frameCmd 1#32 0x0101#16 [0x11#8, 0x22#8, 0x33#8] 0x14A1#16 0x0D0A#16) := by rfl

theorem test_decode_frameResponse :
    decode cfgTest (.frame [0xAA#8, 0x55#8, 0x00#8, 0x00#8, 0x00#8, 0x05#8, 0x00#8, 0x05#8, 0x02#8, 0x01#8, 0x00#8, 0x00#8, 0x00#8, 0x00#8, 0x02#8, 0xD5#8, 0x0C#8, 0x0D#8, 0x0A#8]) = .ok (.frameResponse 5#32 0x0201#16 0#32 0x02#8 0xD50C#16 0x0D0A#16) := by rfl

theorem test_decode_spNone :
    decode cfgTest (.subpacket [0xFA#8, 0xF5#8, 0x00#8, 0x01#8, 0x02#8, 0x03#8, 0x04#8, 0x00#8, 0x02#8, 0xAA#8, 0x55#8]) = .ok (.spNone 0x01020304#32 [0xAA#8, 0x55#8]) := by rfl

theorem test_decode_spStart :
    decode cfgTest (.subpacket [0xFA#8, 0xF5#8, 0x01#8, 0x00#8, 0x00#8, 0x00#8, 0x05#8, 0x00#8, 0x02#8, 0xAA#8, 0x55#8]) = .ok (.spStart 5#32 [0xAA#8, 0x55#8]) := by rfl

theorem test_decode_spMiddle :
    decode cfgTest (.subpacket [0xFA#8, 0xF5#8, 0x02#8, 0x00#8, 0x00#8, 0x00#8, 0x06#8, 0x00#8, 0x01#8, 0x22#8]) = .ok (.spMiddle 6#32 [0x22#8]) := by rfl

theorem test_decode_spEnd :
    decode cfgTest (.subpacket [0xFA#8, 0xF5#8, 0x03#8, 0x00#8, 0x00#8, 0x00#8, 0x07#8, 0x00#8, 0x00#8]) = .ok (.spEnd 7#32 []) := by rfl

/-- V66: an unknown opcode, a reserved flag bit, a short message, and the empty message. -/
theorem test_decode_refuses_illegal_messages :
    [decodeMessage [0x7F#8],
     decodeMessage [0x20#8, 0x01#8, 0x01#8, 0x02#8, 0x00#8, 0x00#8, 0x00#8, 0x00#8, 0x00#8, 0x00#8, 0x00#8, 0x00#8],
     decodeMessage [0x21#8, 0x00#8, 0x00#8], decodeMessage []] = [none, none, none, none] := by decide

/-! ### The CRC generator -/

def tablePart0 : List U16 :=
  [0x0000#16, 0xC0C1#16, 0xC181#16, 0x0140#16, 0xC301#16, 0x03C0#16, 0x0280#16, 0xC241#16,
   0xC601#16, 0x06C0#16, 0x0780#16, 0xC741#16, 0x0500#16, 0xC5C1#16, 0xC481#16, 0x0440#16,
   0xCC01#16, 0x0CC0#16, 0x0D80#16, 0xCD41#16, 0x0F00#16, 0xCFC1#16, 0xCE81#16, 0x0E40#16,
   0x0A00#16, 0xCAC1#16, 0xCB81#16, 0x0B40#16, 0xC901#16, 0x09C0#16, 0x0880#16, 0xC841#16,
   0xD801#16, 0x18C0#16, 0x1980#16, 0xD941#16, 0x1B00#16, 0xDBC1#16, 0xDA81#16, 0x1A40#16,
   0x1E00#16, 0xDEC1#16, 0xDF81#16, 0x1F40#16, 0xDD01#16, 0x1DC0#16, 0x1C80#16, 0xDC41#16,
   0x1400#16, 0xD4C1#16, 0xD581#16, 0x1540#16, 0xD701#16, 0x17C0#16, 0x1680#16, 0xD641#16,
   0xD201#16, 0x12C0#16, 0x1380#16, 0xD341#16, 0x1100#16, 0xD1C1#16, 0xD081#16, 0x1040#16]

def tablePart1 : List U16 :=
  [0xF001#16, 0x30C0#16, 0x3180#16, 0xF141#16, 0x3300#16, 0xF3C1#16, 0xF281#16, 0x3240#16,
   0x3600#16, 0xF6C1#16, 0xF781#16, 0x3740#16, 0xF501#16, 0x35C0#16, 0x3480#16, 0xF441#16,
   0x3C00#16, 0xFCC1#16, 0xFD81#16, 0x3D40#16, 0xFF01#16, 0x3FC0#16, 0x3E80#16, 0xFE41#16,
   0xFA01#16, 0x3AC0#16, 0x3B80#16, 0xFB41#16, 0x3900#16, 0xF9C1#16, 0xF881#16, 0x3840#16,
   0x2800#16, 0xE8C1#16, 0xE981#16, 0x2940#16, 0xEB01#16, 0x2BC0#16, 0x2A80#16, 0xEA41#16,
   0xEE01#16, 0x2EC0#16, 0x2F80#16, 0xEF41#16, 0x2D00#16, 0xEDC1#16, 0xEC81#16, 0x2C40#16,
   0xE401#16, 0x24C0#16, 0x2580#16, 0xE541#16, 0x2700#16, 0xE7C1#16, 0xE681#16, 0x2640#16,
   0x2200#16, 0xE2C1#16, 0xE381#16, 0x2340#16, 0xE101#16, 0x21C0#16, 0x2080#16, 0xE041#16]

def tablePart2 : List U16 :=
  [0xA001#16, 0x60C0#16, 0x6180#16, 0xA141#16, 0x6300#16, 0xA3C1#16, 0xA281#16, 0x6240#16,
   0x6600#16, 0xA6C1#16, 0xA781#16, 0x6740#16, 0xA501#16, 0x65C0#16, 0x6480#16, 0xA441#16,
   0x6C00#16, 0xACC1#16, 0xAD81#16, 0x6D40#16, 0xAF01#16, 0x6FC0#16, 0x6E80#16, 0xAE41#16,
   0xAA01#16, 0x6AC0#16, 0x6B80#16, 0xAB41#16, 0x6900#16, 0xA9C1#16, 0xA881#16, 0x6840#16,
   0x7800#16, 0xB8C1#16, 0xB981#16, 0x7940#16, 0xBB01#16, 0x7BC0#16, 0x7A80#16, 0xBA41#16,
   0xBE01#16, 0x7EC0#16, 0x7F80#16, 0xBF41#16, 0x7D00#16, 0xBDC1#16, 0xBC81#16, 0x7C40#16,
   0xB401#16, 0x74C0#16, 0x7580#16, 0xB541#16, 0x7700#16, 0xB7C1#16, 0xB681#16, 0x7640#16,
   0x7200#16, 0xB2C1#16, 0xB381#16, 0x7340#16, 0xB101#16, 0x71C0#16, 0x7080#16, 0xB041#16]

def tablePart3 : List U16 :=
  [0x5000#16, 0x90C1#16, 0x9181#16, 0x5140#16, 0x9301#16, 0x53C0#16, 0x5280#16, 0x9241#16,
   0x9601#16, 0x56C0#16, 0x5780#16, 0x9741#16, 0x5500#16, 0x95C1#16, 0x9481#16, 0x5440#16,
   0x9C01#16, 0x5CC0#16, 0x5D80#16, 0x9D41#16, 0x5F00#16, 0x9FC1#16, 0x9E81#16, 0x5E40#16,
   0x5A00#16, 0x9AC1#16, 0x9B81#16, 0x5B40#16, 0x9901#16, 0x59C0#16, 0x5880#16, 0x9841#16,
   0x8801#16, 0x48C0#16, 0x4980#16, 0x8941#16, 0x4B00#16, 0x8BC1#16, 0x8A81#16, 0x4A40#16,
   0x4E00#16, 0x8EC1#16, 0x8F81#16, 0x4F40#16, 0x8D01#16, 0x4DC0#16, 0x4C80#16, 0x8C41#16,
   0x4400#16, 0x84C1#16, 0x8581#16, 0x4540#16, 0x8701#16, 0x47C0#16, 0x4680#16, 0x8641#16,
   0x8201#16, 0x42C0#16, 0x4380#16, 0x8341#16, 0x4100#16, 0x81C1#16, 0x8081#16, 0x4040#16]

/-- The 256 entries as 40_crc16.md R101 lists them. -/
theorem test_crc_table :
    (List.range 256).map (fun i => crcTable (BitVec.ofNat 8 i)) = tablePart0 ++ tablePart1 ++ tablePart2 ++ tablePart3 := by
  decide +kernel

/-- V1, V5, V8, V9, V9d. -/
theorem test_crc_vectors :
    [crc16 [], crc16 [0x00#8, 0x00#8, 0x01#8], crc16 [0xFF#8, 0xFF#8],
     crc16 [0x31#8, 0x32#8, 0x33#8, 0x34#8, 0x35#8, 0x36#8, 0x37#8, 0x38#8, 0x39#8],
     crc16 [0xAA#8, 0x55#8, 0x00#8, 0x00#8, 0x00#8, 0x00#8, 0x00#8, 0x00#8, 0x01#8, 0x01#8]] =
      [0x0000#16, 0xC0C1#16, 0xB001#16, 0xBB3D#16, 0xA125#16] := by decide +kernel

/-- The step that one instruction takes when it is presented first: V9 as a port message. -/
theorem test_step_crcCalc :
    outsOf (step (arriving (.message [0x10#8, 0x00#8, 0x00#8, 0x00#8, 0x09#8, 0x31#8, 0x32#8, 0x33#8, 0x34#8, 0x35#8, 0x36#8, 0x37#8, 0x38#8, 0x39#8]))) =
      [.rsp (.crc 0xBB3D#16)] := by decide +kernel

/-! ### The frame unit and the fragmenter -/

/-- V11. -/
theorem test_frameBuild :
    outsOf (exec (.frameBuild 1#32 0x0101#16 [0x11#8, 0x22#8, 0x33#8]) start) = [.rsp (.bytes f1)] := by decide +kernel

/-- V24. -/
theorem test_frameBuild_unknown :
    outsOf (exec (.frameBuild 0#32 0x0102#16 []) start) = [.rsp (.err (.unknownCommand 0x0102#16))] := by decide

/-- V11, the parse. -/
theorem test_frameParse :
    outsOf (exec (.frameParse f1) start) = [.rsp (.frame {
      serial := 1#32, length := 3#16, command := 0x0101#16, payload := [0x11#8, 0x22#8, 0x33#8],
      checksum := 0x14A1#16 })] := by decide +kernel

/-- V14, V16 to V20, V21. -/
theorem test_frameParse_errors :
    [frameResult cfgTest (f1.set 13 0x15#8), frameResult cfgTest (f1.set 7 0x04#8), frameResult cfgTest (f1.set 0 0xAB#8),
     frameResult cfgTest (f1.set 16 0x0B#8), frameResult cfgTest (f1.set 9 0x02#8),
     frameResult cfgTest ((f1.set 9 0x02#8).set 16 0x00#8), frameResult cfgTest (f1.take 13)] =
      [.err (.checksumMismatch 0x14A1#16 0x15A1#16), .err (.malformedFrame .lengthMismatch),
       .err (.malformedFrame .badHeader), .err (.malformedFrame .badTerminator), .err (.unknownCommand 0x0102#16),
       .err (.unknownCommand 0x0102#16), .err (.malformedFrame .tooShort)] := by decide +kernel

/-- V31. -/
theorem test_frag :
    outsOf (exec (.frag 20#32 5#32 f1) start) = [.rsp (.packets [
      [0xFA#8, 0xF5#8, 0x01#8, 0x00#8, 0x00#8, 0x00#8, 0x05#8, 0x00#8, 0x0B#8, 0xAA#8, 0x55#8, 0x00#8, 0x00#8, 0x00#8, 0x01#8, 0x00#8, 0x03#8, 0x01#8, 0x01#8, 0x11#8],
      [0xFA#8, 0xF5#8, 0x03#8, 0x00#8, 0x00#8, 0x00#8, 0x06#8, 0x00#8, 0x06#8, 0x22#8, 0x33#8, 0x14#8, 0xA1#8, 0x0D#8, 0x0A#8]])] := by decide +kernel

/-- V36, V37, V38 and V39: how many sub-packets, and the ids past the wrap. -/
theorem test_frag_counts :
    ([11, 12, 22].map fun n => (fragment cfgTest (List.replicate n 0#8) 20 0#32).length) = [1, 2, 2] ∧
    (fragment cfgTest (List.replicate 34 0#8) 20 0xFFFFFFFE#32).map (fun b => be32 (slice b 3 7)) =
      [0xFFFFFFFE#32, 0xFFFFFFFF#32, 0#32, 1#32] := by decide +kernel

/-! ### The receive path -/

/-- V42. -/
theorem test_rx_none :
    resultOf (exec (.rx [0xFA#8, 0xF5#8, 0x00#8, 0x00#8, 0x00#8, 0x00#8, 0x00#8, 0x00#8, 0x0E#8, 0xAA#8, 0x55#8, 0x00#8, 0x00#8, 0x00#8, 0x00#8, 0x00#8, 0x00#8, 0x01#8, 0x01#8, 0xA1#8, 0x25#8, 0x0D#8, 0x0A#8]) start) = some { start with out := [.app 0#32 0x0101#16 []] } := by decide +kernel

/-- V48: the number of the failing step. -/
theorem test_rx_malformed :
    [[0xFA#8, 0xF5#8, 0x00#8], [0xFB#8, 0xF5#8, 0x00#8, 0x00#8, 0x00#8, 0x00#8, 0x00#8, 0x00#8, 0x00#8],
     [0xFA#8, 0xF5#8, 0x04#8, 0x00#8, 0x00#8, 0x00#8, 0x00#8, 0x00#8, 0x00#8],
     [0xFA#8, 0xF5#8, 0x00#8, 0x00#8, 0x00#8, 0x00#8, 0x00#8, 0x00#8, 0x00#8, 0x01#8]].map (fun b => outsOf (exec (.rx b) start)) =
      [[.err (.malformedSubPacket .tooShort)], [.err (.malformedSubPacket .badHeader)],
       [.err (.malformedSubPacket .badStatus)], [.err (.malformedSubPacket .lengthMismatch)]] := by decide +kernel

/-- V58: a 5-byte payload under a command that is not reply-bearing. -/
theorem test_spNone_application_payload :
    resultOf (exec (.spNone 0#32 [0xAA#8, 0x55#8, 0x00#8, 0x00#8, 0x00#8, 0x09#8, 0x00#8, 0x05#8, 0x01#8, 0x01#8, 0x00#8, 0x00#8, 0x00#8, 0x00#8, 0x00#8, 0x2B#8, 0x7E#8, 0x0D#8, 0x0A#8]) (pending 0#32)) = some { pending 0#32 with out := [.app 9#32 0x0101#16 (List.replicate 5 0x00#8)] } := by decide +kernel

/-- V60: a reply, and the freed slot. -/
theorem test_spNone_response :
    resultOf (exec (.spNone 0#32 rp5) (pending 0#32)) = some { pending 0#32 with
      regs := { (pending 0#32).regs with pend := [(slotOf 0#32).release] }
      out := [.done 0#32 (.reply 0x02#8)] } := by decide +kernel

/-- V46: a `start` while assembling. -/
theorem test_spStart_while_assembling :
    resultOf (exec (.spStart 16#32 [0xAA#8, 0x55#8, 0x00#8, 0x00#8, 0x00#8, 0x03#8, 0x00#8, 0x14#8, 0x01#8, 0x01#8, 0xA0#8]) assembling) = some { assembling with out := [.err (.reassemblyAborted .startWhileAssembling)] } := by decide +kernel

/-- The model's log 18: a `start` that does not fit, while assembling, is two notices. -/
theorem test_spStart_overflow :
    outsOf (exec (.spStart 16#32 (List.replicate 13 0#8)) crowded) =
      [.err (.reassemblyAborted .startWhileAssembling), .err (.reassemblyAborted .overflow)] := by decide +kernel

/-- V43, the second sub-packet. -/
theorem test_spMiddle_appends :
    (regsOf (exec (.spMiddle 17#32 [0xA1#8, 0xA2#8, 0xA3#8, 0xA4#8, 0xA5#8, 0xA6#8, 0xA7#8, 0xA8#8, 0xA9#8, 0xAA#8, 0xAB#8]) assembling)).map
      (fun r => (r.rsmState, r.rsmBase, r.rsmCount, r.rsmLen)) = some (.assembling, 16#32, 2#32, 22) := by decide +kernel

/-- V44: an unexpected id. -/
theorem test_spMiddle_unexpected :
    outsOf (exec (.spMiddle 21#32 [0xAC#8, 0xAD#8, 0xAE#8, 0xAF#8, 0xB0#8, 0xB1#8, 0xB2#8, 0xB3#8, 0x61#8, 0xF1#8, 0x0D#8]) assembling) =
      [.err (.reassemblyAborted (.unexpectedId 17#32 21#32))] := by decide +kernel

/-- F0 cut in two: its `end` delivers it. -/
theorem test_spEnd_delivers :
    outsOf (exec (.spEnd 6#32 [0x01#8, 0xA1#8, 0x25#8, 0x0D#8, 0x0A#8])
      (stateOf cfgTest { start.regs with
        rsmState := .assembling, rsmBase := 5#32, rsmCount := 1#32
        rsmBuf := [[0xAA#8, 0x55#8, 0x00#8, 0x00#8, 0x00#8, 0x00#8, 0x00#8, 0x00#8, 0x01#8]] })) = [.app 0#32 0x0101#16 []] := by decide +kernel

/-- V45: an `end` with an unexpected id. -/
theorem test_spEnd_unexpected :
    resultOf (exec (.spEnd 19#32 [0x0A#8]) assembling) = some { assembling with
      regs := (pending 0#32).regs
      out := [.err (.reassemblyAborted (.unexpectedId 17#32 19#32))] } := by decide +kernel

/-- F1 at the frame parser. -/
theorem test_frameCmd_forwarded :
    outsOf (exec (.frameCmd 1#32 0x0101#16 [0x11#8, 0x22#8, 0x33#8] 0x14A1#16 0x0D0A#16) start) =
      [.app 1#32 0x0101#16 [0x11#8, 0x22#8, 0x33#8]] := by decide +kernel

/-- V49b: a wrong checksum. -/
theorem test_frameCmd_checksum :
    outsOf (exec (.frameCmd 1#32 0x0101#16 [0x11#8, 0x22#8, 0x33#8] 0x15A1#16 0x0D0A#16) start) =
      [.err (.checksumMismatch 0x14A1#16 0x15A1#16)] := by decide +kernel

/-- RP5 at the frame parser with nothing pending (V50). -/
theorem test_frameResponse_stale :
    outsOf (exec (.frameResponse 5#32 0x0201#16 0#32 0x02#8 0xD50C#16 0x0D0A#16) start) = [.err (.staleReply 0#32)] := by
  decide +kernel

/-- V49: a `none` sub-packet with no data. -/
theorem test_spNone_empty :
    outsOf (exec (.spNone 0#32 []) start) = [.err (.malformedFrame .tooShort)] := by decide +kernel

/-- RP5 with a wrong checksum. -/
theorem test_frameResponse_checksum :
    outsOf (exec (.frameResponse 5#32 0x0201#16 0#32 0x02#8 0xD50D#16 0x0D0A#16) (pending 0#32)) =
      [.err (.checksumMismatch 0xD50C#16 0xD50D#16)] := by decide +kernel

/-- F1 comes in through a port: as the data of a `none` sub-packet (V42's form). -/
theorem test_step_frame : outsOf (step (arriving (.frame f1))) = [.app 1#32 0x0101#16 [0x11#8, 0x22#8, 0x33#8]] := by
  decide +kernel

/-- `RXFRAME` of F1 is the two sub-packets of V31 with base 0 when `MTU = 20`; log 27's cases have no expansion. -/
theorem test_rxFrame :
    (rxFrame linked 1#32 0x0101#16 [0x11#8, 0x22#8, 0x33#8]).map List.length = some 2 ∧
    rxFrame linked 1#32 0x0102#16 [] = none ∧ rxFrame start 1#32 0x0101#16 [] = none := by decide +kernel

/-! ### The dispatcher -/

/-- Program P1, third row. -/
theorem test_send_outputs :
    outsOf (exec (.send 0x0101#16 false 0#32 [0x11#8, 0x22#8, 0x33#8]) linked) =
      [.tx [0xFA#8, 0xF5#8, 0x01#8, 0x00#8, 0x00#8, 0x00#8, 0x00#8, 0x00#8, 0x0B#8, 0xAA#8, 0x55#8, 0x00#8, 0x00#8, 0x00#8, 0x00#8, 0x00#8, 0x03#8, 0x01#8, 0x01#8, 0x11#8],
       .tx [0xFA#8, 0xF5#8, 0x03#8, 0x00#8, 0x00#8, 0x00#8, 0x01#8, 0x00#8, 0x06#8, 0x22#8, 0x33#8, 0xD8#8, 0x60#8, 0x0D#8, 0x0A#8],
       .rsp (.sent 0#32)] := by decide +kernel

/-- V56, the counters wrap; and the registration of a send that expects a reply. -/
theorem test_send_registers :
    (regsOf (exec (.send 0x0201#16 true 5#32 [0x00#8, 0x00#8, 0x00#8, 0x07#8, 0x00#8])
      (stateOf cfgTest { linked.regs with serialNext := 0xFFFFFFFF#32, pktidNext := 0xFFFFFFFF#32, time := 3#64 }))).map
        (fun r => (r.serialNext, r.pktidNext, r.pend)) =
      some (0#32, 1#32, [{ valid := true, serial := 0xFFFFFFFF#32, issuedAt := 3#64, timeout := 5#32 }]) := by decide +kernel

/-- V62. -/
theorem test_cancel :
    resultOf (exec (.cancel 7#32) (pending 7#32)) = some { pending 7#32 with
      regs := { (pending 7#32).regs with pend := [(slotOf 7#32).release] }
      out := [.rsp (.cancelled 1)] } := by decide +kernel

/-- V62, the second cancellation; V63. -/
theorem test_cancel_nothing :
    [outsOf (exec (.cancel 7#32) start), outsOf (exec .cancelAll start)] =
      [[.rsp (.cancelled 0)], [.rsp (.cancelled 0)]] := by decide

theorem test_cancelAll :
    resultOf (exec .cancelAll (pending 7#32)) = some { pending 7#32 with
      regs := { (pending 7#32).regs with pend := [(slotOf 7#32).release] }
      out := [.rsp (.cancelled 1)] } := by decide +kernel

/-- V65: clamped. -/
theorem test_setMtu :
    resultOf (exec (.setMtu 70000#32) start) = some { start with regs := { start.regs with mtu := 65544 } } := by decide +kernel

theorem test_linkUp :
    resultOf (exec .linkUp start) = some { start with regs := { start.regs with link := true } } := by decide +kernel

/-- V64. -/
theorem test_linkDown :
    resultOf (exec .linkDown assembling) = some { assembling with
      regs := { (resetRegisters cfgTest) with time := 10#64, serialNext := 1#32, pend := [(slotOf 0#32).release] }
      out := [.done 0#32 .linkDown, .err (.reassemblyAborted .linkDown)] } := by decide +kernel

/-- V61: nothing at the first and second tick, `Timeout` at the third. -/
theorem test_tick :
    [outsOf (exec .tick (pending 7#32)),
     outsOf (exec .tick (stateOf cfgTest { (pending 7#32).regs with time := 11#64 })),
     outsOf (exec .tick (stateOf cfgTest { (pending 7#32).regs with time := 12#64 }))] =
      [[], [], [.done 7#32 .timeout]] := by decide +kernel

/-- The example of R260. -/
theorem test_reset :
    resultOf (exec .reset assembling) = some { start with out := [.rsp .ack] } := by decide +kernel

/-- V66: `RSP` and `ERR`, no register changes. -/
theorem test_step_illegal :
    step (arriving (.message [0x7F#8])) =
      .next { start with out := [.rsp (.err (.illegalOp 0x7F#8)), .err (.illegalOp 0x7F#8)] } := by rfl

/-! ### Witnesses: the hypotheses of each obligation, met by concrete values -/

/-- `cfgTest` with two command codes that differ in one bit. -/
def cfgNear : Cfg := { cfgTest with cmdSet := [0x0101#16, 0x0100#16, 0x0201#16] }

theorem cfgTest_wf : cfgTest.wf := ⟨by simp [cfgTest], by decide, by decide, by decide, rfl⟩

theorem cfgNear_wf : cfgNear.wf := ⟨by simp [cfgNear, cfgTest], by decide, by decide, by decide, rfl⟩

theorem crowded_wf : crowded.cfg.wf :=
  ⟨by simp [crowded, assembling, stateOf, cfgTest], by decide, by decide, by decide, rfl⟩

theorem witness_DecodeOfEncodeIsInstruction :
    cfgTest.wf ∧ Instr.wellFormed cfgTest (.send 0x0101#16 true 2#32 [0x07#8]) = true ∧
    Instr.wellFormed cfgTest (.frameCmd 0#32 0x0101#16 (List.replicate 65535 0#8) 0#16 0#16) = true ∧
    Instr.wellFormed cfgTest (.frameResponse 0#32 0x0201#16 7#32 0#8 0#16 0#16) = true := by
  refine ⟨cfgTest_wf, by decide, ?_, by decide⟩
  simp only [Instr.wellFormed, fitsUnit, List.length_replicate]
  rfl

theorem witness_DecodedArrivalIsItsEncoding :
    decode cfgTest (.frame rp5) = .ok (.frameResponse 5#32 0x0201#16 0#32 0x02#8 0xD50C#16 0x0D0A#16) := by rfl

theorem witness_SpecWordsDecode : cfgTest.wf ∧ cfgTest.stStart = 0x01#8 := ⟨cfgTest_wf, rfl⟩

theorem witness_StepRunsDecodedInstruction :
    (arriving (.message [0x40#8])).inbox = [[0x40#8]] ∧
    decode (arriving (.message [0x40#8])).cfg (.message [0x40#8]) = .ok .tick := ⟨rfl, rfl⟩

theorem witness_IdleStepKeepsState : (pending 7#32).inbox = [] := by rfl

/-- An unknown opcode, and a known one with too few bytes. -/
theorem witness_IllegalMessageIsRefused :
    (arriving (.message [0x7F#8])).inbox = [[0x7F#8]] ∧
    (∀ i : Instr, i.wellFormed cfgTest = true → encode cfgTest i ≠ .message [0x7F#8]) ∧
    (∀ i : Instr, i.wellFormed cfgTest = true → encode cfgTest i ≠ .message [0x21#8, 0x00#8, 0x00#8]) := by
  refine ⟨rfl, ?_, ?_⟩ <;> intro i _ <;> cases i <;> simp [encode, rxMessage, enc32]

theorem witness_EmptyMessageIsRefused : (arriving (.message [])).inbox = [[]] := by rfl

/-- A `start` for the first clause, F1 in a `none` sub-packet for the second. -/
theorem witness_UnitArrivalIsReception :
    (arriving (.subpacket (subpkt cfgTest .start 5#32 [0xAA#8]))).inbox =
      [[0x33#8] ++ enc32 (BitVec.ofNat 32 10) ++ subpkt cfgTest .start 5#32 [0xAA#8]] ∧
    decode cfgTest (.subpacket (subpkt cfgTest .start 5#32 [0xAA#8])) = .ok (.spStart 5#32 [0xAA#8]) ∧
    (arriving (.frame f1)).inbox = [[0x33#8] ++ enc32 (BitVec.ofNat 32 26) ++ subpkt cfgTest .whole 0#32 f1] ∧
    decode cfgTest (.frame f1) = .ok (.frameCmd 1#32 0x0101#16 [0x11#8, 0x22#8, 0x33#8] 0x14A1#16 0x0D0A#16) := by
  exact ⟨rfl, rfl, rfl, rfl⟩

/-- A state that is not the reset state meets the invariant, and a step from it answers. -/
theorem witness_StepKeepsInvariant :
    (present (.message [0x40#8]) assembling).Inv ∧ ∃ t, step (present (.message [0x40#8]) assembling) = .next t :=
  ⟨by decide, _, rfl⟩

theorem witness_StepKeepsConfigurationAndOutputs : ∃ t, step (arriving (.message [0x01#8])) = .next t := ⟨_, rfl⟩

theorem witness_PowerUpEqualsReset :
    ∃ s t : State, s.regs.link = true ∧ s.cfg = State.reset.cfg ∧ exec .reset s = .next t :=
  ⟨{ State.reset with regs := { State.reset.regs with link := true } }, _, rfl, rfl, rfl⟩

theorem witness_BitSerialFormAgrees :
    ∀ c : U16, crcShift c = if c.getLsbD 0 = true then (c >>> 1) ^^^ 0xA001#16 else c >>> 1 := fun _ => rfl

theorem witness_CrcIsLinear : [0x01#8, 0x02#8].length = [0xAA#8, 0x55#8].length := by decide

/-- The lowest bit of the first byte and the highest of the last. -/
theorem witness_CrcDetectsOneChangedBit : 0 < f1.length ∧ 0 < 8 ∧ 16 < f1.length ∧ 7 < 8 := by decide

theorem witness_IntegerCodecRoundTrips :
    -2 ^ 31 ≤ (-2 ^ 31 : Int) ∧ (-2 ^ 31 : Int) < 2 ^ 31 ∧ -2 ^ 31 ≤ (2 ^ 31 - 1 : Int) ∧ (2 ^ 31 - 1 : Int) < 2 ^ 31 := by
  decide

/-- One witness for each clause, the longest payload and one byte more. -/
theorem witness_FrameBuildChecksThenSerializes :
    start.cfg.isCommand 0x0102#16 = false ∧ start.cfg.isCommand 0x0101#16 = true ∧
    65535 < (List.replicate 65536 0#8).length ∧ (List.replicate 65535 0#8).length ≤ 65535 := by
  simp only [List.length_replicate]
  decide

theorem witness_ParseInvertsSerialize :
    start.cfg.isCommand 0x0101#16 = true ∧ (List.replicate 65535 0#8).length ≤ 65535 := by
  simp only [List.length_replicate]
  decide

theorem witness_AcceptedFrameHasOneForm :
    exec (.frameParse f1) start = .next { start with out := start.out ++ [.rsp (.frame {
      serial := 1#32, length := 3#16, command := 0x0101#16, payload := [0x11#8, 0x22#8, 0x33#8],
      checksum := 0x14A1#16 })] } :=
  eq_next_of_resultOf (by decide +kernel)

theorem witness_FrameParseReportsFirstFailure :
    3 = (f1.getD 6 0#8).toNat * 256 + (f1.getD 7 0#8).toNat ∧ 0x0101#16 = (f1.getD 8 0#8) ++ (f1.getD 9 0#8) ∧
    0x14A1#16 = crc16 (f1.take (10 + 3)) ∧ 0x14A1#16 = (f1.getD (10 + 3) 0#8) ++ (f1.getD (11 + 3) 0#8) := by
  decide +kernel

/-- The clauses' boundary bytes lie in a frame with a 3-byte payload; the changed command is unknown in one configuration and
known in another. -/
theorem witness_OneChangedBitIsRefused :
    cfgTest.isCommand 0x0101#16 = true ∧ cfgNear.isCommand 0x0101#16 = true ∧ [0x11#8, 0x22#8, 0x33#8].length ≤ 65535 ∧
    (∀ k ∈ [0, 1, 2, 5, 6, 7, 8, 9, 10, 14, 15, 16], k < 14 + [0x11#8, 0x22#8, 0x33#8].length) ∧ 7 < 8 ∧
    cfgTest.isCommand (0x0101#16 ^^^ (1#16 <<< (8 * (9 - 8) + 7))) = false ∧
    cfgNear.isCommand (0x0101#16 ^^^ (1#16 <<< (8 * (9 - 9) + 0))) = true := by decide

theorem witness_FragCutsInputIntoSubpackets :
    start.cfg.wf ∧ 10 ≤ (10#32).toNat ∧ (10#32).toNat ≤ 65544 ∧ 1 = (10#32).toNat - 9 ∧
    10 ≤ (65544#32).toNat ∧ (65544#32).toNat ≤ 65544 ∧ 65535 = (65544#32).toNat - 9 :=
  ⟨cfgTest_wf, by decide⟩

theorem witness_FragRefusesBadMtu :
    ((9#32).toNat < 10 ∨ 65544 < (9#32).toNat) ∧ ((65545#32).toNat < 10 ∨ 65544 < (65545#32).toNat) := by decide

theorem witness_ReassemblyInvertsFragmentation :
    (pending 7#32).cfg.wf ∧ (pending 7#32).regs.reassemblerOk ∧ (pending 7#32).regs.rsmState = .idle ∧ 10 ≤ 10 ∧
    10 ≤ 65544 ∧ f1.length ≤ (pending 7#32).cfg.rsmBufMax := ⟨cfgTest_wf, by decide⟩

/-- `sp1` of V33's four with the id 0x15. -/
theorem witness_BrokenSequenceDeliversNothing :
    start.cfg.wf ∧ start.regs.reassemblerOk ∧ start.regs.rsmState = .idle ∧ 10 ≤ 20 ∧ 20 ≤ 65544 ∧
    (List.replicate 34 0#8).length ≤ start.cfg.rsmBufMax ∧ 0 < 1 ∧
    1 + 1 < (fragment start.cfg (List.replicate 34 0#8) 20 16#32).length ∧ 0x15#32 ≠ 16#32 + BitVec.ofNat 32 1 :=
  ⟨cfgTest_wf, by decide +kernel⟩

theorem witness_RxRunsTheSubpacket : start.cfg.wf ∧ f1.length ≤ 65535 := ⟨cfgTest_wf, by decide⟩

/-- In both states of the reassembler, the second with a chunk that just fits. -/
theorem witness_StartOpensReassembly :
    start.cfg.wf ∧ start.regs.rsmState = .idle ∧ f1.length ≤ 65535 ∧ f1.length ≤ start.cfg.rsmBufMax ∧
    crowded.cfg.wf ∧ crowded.regs.rsmState = .assembling ∧ (List.replicate 12 0#8).length ≤ crowded.cfg.rsmBufMax :=
  ⟨cfgTest_wf, by decide, by decide, by decide, crowded_wf, by decide⟩

/-- The expected id with a chunk that just fits, and another id. -/
theorem witness_MiddleAppendsOrAborts :
    crowded.cfg.wf ∧ [0x01#8].length ≤ 65535 ∧ crowded.regs.rsmState = .assembling ∧
    17#32 = crowded.regs.rsmBase + crowded.regs.rsmCount ∧
    crowded.regs.rsmBuf.flatten.length + [0x01#8].length = crowded.cfg.rsmBufMax ∧
    18#32 ≠ crowded.regs.rsmBase + crowded.regs.rsmCount := ⟨crowded_wf, by decide⟩

theorem witness_EndDeliversOrAborts :
    crowded.cfg.wf ∧ [0x01#8].length ≤ 65535 ∧ crowded.regs.rsmState = .assembling ∧
    17#32 = crowded.regs.rsmBase + crowded.regs.rsmCount ∧
    crowded.regs.rsmBuf.flatten.length + [0x01#8].length ≤ crowded.cfg.rsmBufMax ∧
    18#32 ≠ crowded.regs.rsmBase + crowded.regs.rsmCount := ⟨crowded_wf, by decide⟩

/-- One byte too many for a `start`, and for a `middle` or an `end`. -/
theorem witness_OverflowAbortsReassembly :
    crowded.cfg.rsmBufMax < (List.replicate 13 0#8).length ∧ crowded.regs.rsmState = .assembling ∧
    17#32 = crowded.regs.rsmBase + crowded.regs.rsmCount ∧
    crowded.cfg.rsmBufMax < crowded.regs.rsmBuf.flatten.length + [0x01#8, 0x02#8].length := by decide

theorem witness_IdleDiscardsMiddleAndEnd : (pending 7#32).regs.rsmState = .idle := by rfl

/-- The four units of V48, one for each clause. -/
theorem witness_MalformedSubpacketResetsReassembler :
    [0xFA#8, 0xF5#8, 0x00#8].length < 9 ∧
    ([0xFB#8, 0xF5#8, 0x00#8, 0x00#8, 0x00#8, 0x00#8, 0x00#8, 0x00#8, 0x00#8] : Bytes).take 2 ≠ [0xFA#8, 0xF5#8] ∧
    ([0xFA#8, 0xF5#8, 0x04#8, 0x00#8, 0x00#8, 0x00#8, 0x00#8, 0x00#8, 0x00#8] : Bytes).getD 2 0#8 ∉
      [cfgTest.stNone, cfgTest.stStart, cfgTest.stMiddle, cfgTest.stEnd] ∧
    ([0xFA#8, 0xF5#8, 0x00#8, 0x00#8, 0x00#8, 0x00#8, 0x00#8, 0x00#8, 0x00#8, 0x01#8] : Bytes).length ≠ 9 + (0 * 256 + 0) := by decide

/-- A payload that is not 5 bytes under a reply-bearing command, and a 5-byte one under another. -/
theorem witness_ApplicationFrameIsForwarded :
    assembling.cfg.isCommand 0x0201#16 = true ∧
    ¬ ([0x11#8].length = 5 ∧ assembling.cfg.isReplyBearing 0x0201#16 = true) ∧
    assembling.cfg.isCommand 0x0101#16 = true ∧
    ¬ ((List.replicate 5 0#8).length = 5 ∧ assembling.cfg.isReplyBearing 0x0101#16 = true) := by decide

/-- A unit for each of the six steps (V49 for the first, then F1 with one field changed); and the last three on a response. -/
theorem witness_RefusedFrameIsDropped :
    ([] : Bytes).length < 14 ∧ (f1.set 0 0xAB#8).take 2 ≠ [0xAA#8, 0x55#8] ∧ (f1.set 7 0x04#8).length ≠ 14 + 4 ∧
    start.cfg.isCommand ((f1.set 9 0x02#8).getD 8 0#8 ++ (f1.set 9 0x02#8).getD 9 0#8) = false ∧
    (f1.set 16 0x0B#8).drop (12 + 3) ≠ [0x0D#8, 0x0A#8] ∧ crc16 (f1.take (10 + 3)) ≠ 0x15A1#16 ∧
    rp5.drop 10 = enc32 0#32 ++ [0x02#8] ++ [0xD5#8, 0x0C#8, 0x0D#8, 0x0A#8] ∧ start.cfg.isCommand 0x0202#16 = false ∧
    start.cfg.isCommand 0x0201#16 = true ∧ 0x0D0B#16 ≠ 0x0D0A#16 ∧
    crc16 ((serialize 5#32 0x0201#16 (enc32 0#32 ++ [0x02#8])).take (10 + 5)) ≠ 0xD50D#16 := by decide +kernel

theorem witness_ResponseResolvesItsRegistration :
    assembling.Inv ∧ assembling.cfg.isCommand 0x0201#16 = true ∧ assembling.cfg.isReplyBearing 0x0201#16 = true ∧
    [0x00#8, 0x00#8, 0x00#8, 0x00#8, 0x02#8] = enc32 0#32 ++ [0x02#8] ∧
    0xD50C#16 = crc16 ((serialize 5#32 0x0201#16 [0x00#8, 0x00#8, 0x00#8, 0x00#8, 0x02#8]).take 15) ∧
    0#32 ∈ pendingSerials assembling.regs.pend := by decide +kernel

theorem witness_StaleReplyIsDropped :
    (pending 7#32).cfg.isCommand 0x0201#16 = true ∧ (pending 7#32).cfg.isReplyBearing 0x0201#16 = true ∧
    [0x00#8, 0x00#8, 0x00#8, 0x00#8, 0x02#8] = enc32 0#32 ++ [0x02#8] ∧
    0xD50C#16 = crc16 ((serialize 5#32 0x0201#16 [0x00#8, 0x00#8, 0x00#8, 0x00#8, 0x02#8]).take 15) ∧
    0#32 ∉ pendingSerials (pending 7#32).regs.pend := by decide +kernel

theorem witness_ReceptionIgnoresLinkMtuTimeAndCounters :
    ([.rx f1, .frameCmd 0#32 0#16 [] 0#16 0#16, .frameResponse 0#32 0#16 0#32 0#8 0#16 0#16, .spNone 0#32 [], .spStart 0#32 [],
      .spMiddle 0#32 [], .spEnd 0#32 []] : List Instr).all unitEvent = true := by decide

/-- One refusal for each check: no link, an unknown command, a long payload, a small `MTU`, a full table, a serial already
pending with a slot free. -/
theorem witness_SendRefusesInOrder :
    ¬ start.canSend 0x0101#16 false [] ∧ ¬ linked.canSend 0x0102#16 false [] ∧
    ¬ linked.canSend 0x0101#16 false (List.replicate 65536 0#8) ∧
    ¬ (stateOf cfgTest { linked.regs with mtu := 9 }).canSend 0x0101#16 false [] ∧
    ¬ (pending 0#32).canSend 0x0101#16 true [] ∧
    ¬ (stateOf cfgTest { (pending 1#32).regs with pend := [freeSlot, slotOf 1#32] }).canSend 0x0101#16 true [] := by
  refine ⟨by decide, by decide, ?_, by decide, by decide, by decide⟩
  rintro ⟨_, _, h, _⟩
  rw [List.length_replicate] at h
  exact absurd h (by decide)

/-- With a reply and without, the second with the table full. -/
theorem witness_SendIssuesCommand :
    linked.canSend 0x0101#16 true [] ∧ (pending 0#32).canSend 0x0101#16 false [0x01#8] := by decide

theorem witness_OnlySendWritesAndWithinMtu :
    ∃ (t : State) (new : List Output) (b : Bytes),
      exec (.send 0x0101#16 false 0#32 []) linked = .next t ∧ t.out = linked.out ++ new ∧ .tx b ∈ new :=
  ⟨_, _, _, rfl, rfl, List.mem_cons_self⟩

theorem witness_SentCommandArrivesWhole :
    linked.cfg.wf ∧ (pending 7#32).cfg = linked.cfg ∧ (pending 7#32).regs.reassemblerOk ∧
    (pending 7#32).regs.rsmState = .idle ∧ 14 + [0x11#8].length ≤ (pending 7#32).cfg.rsmBufMax ∧
    linked.canSend 0x0101#16 true [0x11#8] ∧ ¬ ([0x11#8].length = 5 ∧ linked.cfg.isReplyBearing 0x0101#16 = true) ∧
    ∃ (t : State) (new : List Output),
      exec (.send 0x0101#16 true 1#32 [0x11#8]) linked = .next t ∧ t.out = linked.out ++ new :=
  ⟨cfgTest_wf, rfl, by decide, rfl, by decide, by decide, by decide, _, _, rfl, rfl⟩

theorem witness_SerialsAreConsecutive :
    .reset ∉ ([.linkUp, .setMtu 20#32, .send 0x0101#16 false 0#32 [], .tick] : List Instr) := by decide

/-- A send that registers, and two ticks for its timeout of 2. -/
theorem witness_RegistrationResolvesExactlyOnce :
    linked.Inv ∧ linked.canSend 0x0101#16 true [] ∧ .reset ∉ ticks 2 ∧ .cancelAll ∉ ticks 2 ∧
    .cancel linked.regs.serialNext ∉ ticks 2 ∧ max (2#32).toNat 1 ≤ (ticks 2).count .tick ∧
    (match runEvents (.send 0x0101#16 true 2#32 [] :: ticks 2) linked with
      | .next t => t.out.count (.rsp (.sent linked.regs.serialNext))
      | .fault _ => 0
      | .refused _ => 0) = 1 := by decide +kernel

theorem witness_DoneFreesItsSlot :
    assembling.Inv ∧ ∃ (t : State) (new : List Output),
      exec .linkDown assembling = .next t ∧ t.out = assembling.out ++ new ∧ .done 0#32 .linkDown ∈ new :=
  ⟨by decide, _, _, rfl, rfl, List.mem_cons_self⟩

theorem witness_TickResolvesExpired :
    11#64 = (pending 7#32).regs.time + 1#64 ∧
    ∀ q : Slot, decide (q.valid = true ∧ q.timeout.toNat ≤ (11#64 - q.issuedAt).toNat) = true ↔
      q.valid = true ∧ q.timeout.toNat ≤ (11#64 - q.issuedAt).toNat :=
  ⟨rfl, fun _ => decide_eq_true_iff⟩

/-- A timeout of 3: the ticks 2 and 3 meet the two clauses. -/
theorem witness_TimeoutFiresAtItsTick :
    (pending 7#32).regs.pend[0]? = some (slotOf 7#32) ∧ (slotOf 7#32).valid = true ∧
    (slotOf 7#32).issuedAt = (pending 7#32).regs.time ∧ 2 < max (slotOf 7#32).timeout.toNat 1 ∧
    3 = max (slotOf 7#32).timeout.toNat 1 := by decide

theorem witness_CancelRemovesOneSilently :
    (pending 7#32).Inv ∧ 7#32 ∈ pendingSerials (pending 7#32).regs.pend ∧ 8#32 ∉ pendingSerials (pending 7#32).regs.pend := by
  decide

theorem witness_TransportStatusIsStored :
    (65544 : Fin 65545).val = min (70000#32).toNat 65544 ∧ (9 : Fin 65545).val = min (9#32).toNat 65544 := by decide

theorem witness_LinkDownResolvesEverything : assembling.regs.reassemblerOk ∧ linked.regs.reassemblerOk := by decide

theorem witness_BootSequenceEnablesSend :
    start.cfg.wf ∧ 10 ≤ (10#32).toNat ∧ start.cfg.isCommand 0x0101#16 = true ∧ f1.length ≤ 65535 :=
  ⟨cfgTest_wf, by decide⟩

theorem witness_PureOperationsChangeNoRegister :
    start.cfg = cfgTest ∧ ((∃ b, (.crcCalc f1 : Instr) = .crcCalc b) ∨
      (∃ serial cmd p, (.crcCalc f1 : Instr) = .frameBuild serial cmd p) ∨
      (∃ b, (.crcCalc f1 : Instr) = .frameParse b) ∨ (∃ mtu base b, (.crcCalc f1 : Instr) = .frag mtu base b)) :=
  ⟨rfl, .inl ⟨f1, rfl⟩⟩

theorem witness_RefusedOperationChangesNothing :
    ∃ (t : State) (new : List Output), exec (.send 0x0101#16 true 1#32 []) start = .next t ∧
      t.out = start.out ++ new ∧ ∃ o ∈ new, o.isRefusal = true :=
  ⟨_, _, rfl, rfl, _, List.mem_cons_self, rfl⟩

theorem witness_OneResponsePerHostEvent :
    ∃ (t : State) (new : List Output), exec (.cancel 7#32) start = .next t ∧ t.out = start.out ++ new :=
  ⟨_, _, rfl, rfl⟩

/-- A refused `SEND` meets every clause. -/
theorem witness_DispatcherRegistersHaveTheirWriters :
    (∃ t, exec (.send 0x0101#16 true 1#32 []) start = .next t) ∧ (.send 0x0101#16 true 1#32 [] : Instr) ≠ .reset ∧
    (∀ cmd expectsReply timeout p, (.send 0x0101#16 true 1#32 [] : Instr) = .send cmd expectsReply timeout p →
      ¬ start.canSend cmd expectsReply p) ∧
    (.send 0x0101#16 true 1#32 [] : Instr) ≠ .tick ∧ (∀ v, (.send 0x0101#16 true 1#32 [] : Instr) ≠ .setMtu v) ∧
    (.send 0x0101#16 true 1#32 [] : Instr) ≠ .linkDown ∧ (.send 0x0101#16 true 1#32 [] : Instr) ≠ .linkUp := by
  refine ⟨⟨_, rfl⟩, by decide, ?_, by decide, by simp, by decide, by decide⟩
  intro cmd er tm p _ h
  exact absurd h.1 (by decide)

end Sys2Proof.Tests
end

section
/-! PROOFS. The statements about the CRC generator (40_crc16.md). -/

namespace Sys2Proof.Machine

/-- R102's table index, `(crc ^ zext_16(byte)) & 0xFF`, is the low byte of the register exclusive-or the input byte. -/
theorem crcIndex_eq_xor_low_byte (crc : U16) (x : Byte) :
    ((crc ^^^ x.zeroExtend 16) &&& 0xFF#16).truncate 8 = crc.extractLsb' 0 8 ^^^ x := by
  have mask_low : (0xFF#16).setWidth 8 = BitVec.allOnes 8 := by decide
  have zext_low : (x.zeroExtend 16).setWidth 8 = x := by simp
  have crc_low : crc.setWidth 8 = crc.extractLsb' 0 8 := BitVec.setWidth_eq_extractLsb' (by decide)
  rw [BitVec.truncate_eq_setWidth, BitVec.setWidth_and, BitVec.setWidth_xor, mask_low, zext_low, crc_low,
    BitVec.and_allOnes]

theorem crcUpdate_eq_low_byte (crc : U16) (x : Byte) :
    crcUpdate crc x = (crc >>> 8) ^^^ crcTable (crc.extractLsb' 0 8 ^^^ x) := by
  rw [crcUpdate, crcIndex_eq_xor_low_byte]

/-- R103 and R104: the checksum is the fold, from seed 0, of R102's formula with its index as a byte. -/
theorem crc16_eq_foldl_low_byte (b : Bytes) :
    crc16 b = b.foldl (fun (crc : U16) x => (crc >>> 8) ^^^ crcTable (crc.extractLsb' 0 8 ^^^ x)) 0#16 := by
  have step_eq : crcUpdate = fun (crc : U16) x => (crc >>> 8) ^^^ crcTable (crc.extractLsb' 0 8 ^^^ x) :=
    funext₂ crcUpdate_eq_low_byte
  rw [crc16, step_eq]

/-- `CRC.CALC` answers the checksum on the port and keeps every register. -/
theorem exec_crcCalc (s : State) (b : Bytes) :
    exec (.crcCalc b) s = .next { s with out := s.out ++ [.rsp (.crc (crc16 b))] } := by
  rw [exec_eq_after, State.after_eq]
  rfl

/-- Settles O15: the answer of `CRC.CALC` is the checksum, and the checksum is the fold. -/
theorem crcCalcAnswersChecksum : Obligations.CrcCalcAnswersChecksum := by
  unfold Obligations.CrcCalcAnswersChecksum
  intro s b
  rw [exec_crcCalc, crc16_eq_foldl_low_byte]

end Sys2Proof.Machine
end

section
/-! PROOFS. The statements about the frame unit (41_frame.md). -/

namespace Sys2Proof.Machine

/-! ### Big-endian fields as raw bytes -/

/-- R51's accumulation step, at a fixed width: one more byte goes in below the bits there are. -/
theorem ofNat_mul_add_toNat (w n : Nat) (x : Byte) :
    BitVec.ofNat (w + 8) (n * 256 + x.toNat) = BitVec.ofNat w n ++ x := by
  apply BitVec.eq_of_toNat_eq
  have hx : x.toNat < 2 ^ 8 := x.isLt
  rw [BitVec.toNat_append, BitVec.toNat_ofNat, BitVec.toNat_ofNat, ← Nat.shiftLeft_add_eq_or_of_lt hx,
    Nat.shiftLeft_eq, Nat.pow_add, Nat.mul_comm (2 ^ w), Nat.mod_mul]
  have high : (n * 256 + x.toNat) / 2 ^ 8 = n := by omega
  have low : (n * 256 + x.toNat) % 2 ^ 8 = x.toNat := by omega
  rw [high, low, Nat.add_comm, Nat.mul_comm]

theorem be16_pair (x y : Byte) : be16 [x, y] = x ++ y := by
  have hx : BitVec.ofNat 8 (0 * 256 + x.toNat) = x := by simp
  calc be16 [x, y] = BitVec.ofNat 8 (0 * 256 + x.toNat) ++ y := ofNat_mul_add_toNat 8 _ y
    _ = x ++ y := by rw [hx]

theorem be16_pair_toNat (x y : Byte) : (be16 [x, y]).toNat = x.toNat * 256 + y.toNat := by
  have hx : x.toNat < 256 := x.isLt
  have hy : y.toNat < 256 := y.isLt
  rw [be16, BitVec.toNat_ofNat]
  simp only [beNat, List.foldl_cons, List.foldl_nil]
  omega

theorem be32_quad (x y z w : Byte) : be32 [x, y, z, w] = x ++ y ++ z ++ w := by
  have hxy : BitVec.ofNat 16 (beNat [x, y]) = x ++ y := be16_pair x y
  calc be32 [x, y, z, w]
      = BitVec.ofNat 24 (beNat [x, y] * 256 + z.toNat) ++ w := ofNat_mul_add_toNat 24 _ w
    _ = BitVec.ofNat 16 (beNat [x, y]) ++ z ++ w := by rw [ofNat_mul_add_toNat 16]
    _ = x ++ y ++ z ++ w := by rw [hxy]

@[simp] theorem enc16_append (x y : Byte) : enc16 (x ++ y) = [x, y] := by
  have high : (x ++ y).extractLsb' 8 8 = x := BitVec.extractLsb'_append_eq_left
  have low : (x ++ y).extractLsb' 0 8 = y := BitVec.extractLsb'_append_eq_right
  rw [enc16, high, low]

@[simp] theorem be16_enc16 (v : U16) : be16 (enc16 v) = v := by
  calc be16 (enc16 v) = v.extractLsb' (0 + 8) 8 ++ v.extractLsb' 0 8 := be16_pair _ _
    _ = v.extractLsb' 0 16 := BitVec.extractLsb'_append_extractLsb'_eq_extractLsb' rfl
    _ = v := BitVec.extractLsb'_eq_self

/-- R53: on 2-byte strings the two directions of the codec are inverses. -/
theorem be16_eq_iff {b : Bytes} (h : b.length = 2) (v : U16) : be16 b = v ↔ b = enc16 v := by
  obtain ⟨x, y, rfl⟩ := List.length_eq_two.1 h
  constructor
  · rintro rfl
    rw [be16_pair, enc16_append]
  · intro hv
    rw [hv, be16_enc16]

/-! ### Slices as raw bytes -/

theorem slice_eq_getD_cons {b : Bytes} {i j : Nat} (hij : i < j) (hi : i < b.length) :
    slice b i j = b.getD i 0#8 :: slice b (i + 1) j := by
  rw [slice, slice, List.drop_eq_getElem_cons hi, show j - i = (j - (i + 1)) + 1 by omega, List.take_succ_cons,
    List.getD_eq_getElem _ _ hi]

@[simp] theorem slice_self (b : Bytes) (i : Nat) : slice b i i = [] := by simp [slice]

theorem slice_two {b : Bytes} {i : Nat} (h : i + 2 ≤ b.length) :
    slice b i (i + 2) = [b.getD i 0#8, b.getD (i + 1) 0#8] := by
  rw [slice_eq_getD_cons (by omega) (by omega), slice_eq_getD_cons (by omega) (by omega), slice_self]

theorem slice_four {b : Bytes} {i : Nat} (h : i + 4 ≤ b.length) :
    slice b i (i + 4) = [b.getD i 0#8, b.getD (i + 1) 0#8, b.getD (i + 2) 0#8, b.getD (i + 3) 0#8] := by
  rw [slice_eq_getD_cons (by omega) (by omega), slice_eq_getD_cons (by omega) (by omega),
    slice_eq_getD_cons (by omega) (by omega), slice_eq_getD_cons (by omega) (by omega), slice_self]

theorem be16_slice {b : Bytes} {i : Nat} (h : i + 2 ≤ b.length) :
    be16 (slice b i (i + 2)) = b.getD i 0#8 ++ b.getD (i + 1) 0#8 := by
  rw [slice_two h, be16_pair]

theorem be16_slice_toNat {b : Bytes} {i : Nat} (h : i + 2 ≤ b.length) :
    (be16 (slice b i (i + 2))).toNat = (b.getD i 0#8).toNat * 256 + (b.getD (i + 1) 0#8).toNat := by
  rw [slice_two h, be16_pair_toNat]

theorem be32_slice {b : Bytes} {i : Nat} (h : i + 4 ≤ b.length) :
    be32 (slice b i (i + 4)) = b.getD i 0#8 ++ b.getD (i + 1) 0#8 ++ b.getD (i + 2) 0#8 ++ b.getD (i + 3) 0#8 := by
  rw [slice_four h, be32_quad]

/-! ### The parser -/

/-- R121's second step, on the raw bytes. -/
theorem header_eq_iff {b : Bytes} (h : 2 ≤ b.length) :
    be16 (slice b 0 2) = 0xAA55#16 ↔ b.take 2 = [0xAA#8, 0x55#8] :=
  be16_eq_iff (by rw [slice_length]; omega) _

/-- R121's fifth step, on the raw bytes of a string of the announced length. -/
theorem terminator_eq_iff {b : Bytes} {l : Nat} (h : b.length = 14 + l) :
    be16 (slice b (12 + l) (14 + l)) = 0x0D0A#16 ↔ b.drop (12 + l) = [0x0D#8, 0x0A#8] := by
  have to_end : slice b (12 + l) (14 + l) = b.drop (12 + l) := List.take_of_length_le (by rw [List.length_drop]; omega)
  rw [to_end]
  exact be16_eq_iff (by rw [List.length_drop]; omega) _

/-- R121 with every field written from the raw bytes: the six steps correspond one by one, and each is compared knowing that
the steps before it passed. -/
theorem parseFrame_eq_raw (c : Cfg) (b : Bytes) {l : Nat} {cmd computed found : U16}
    (hl : l = (b.getD 6 0#8).toNat * 256 + (b.getD 7 0#8).toNat)
    (hcmd : cmd = b.getD 8 0#8 ++ b.getD 9 0#8)
    (hcomputed : computed = crc16 (b.take (10 + l)))
    (hfound : found = b.getD (10 + l) 0#8 ++ b.getD (11 + l) 0#8) :
    parseFrame c b =
      if b.length < 14 then .error (.malformedFrame .tooShort)
      else if b.take 2 ≠ [0xAA#8, 0x55#8] then .error (.malformedFrame .badHeader)
      else if b.length ≠ 14 + l then .error (.malformedFrame .lengthMismatch)
      else if c.isCommand cmd = false then .error (.unknownCommand cmd)
      else if b.drop (12 + l) ≠ [0x0D#8, 0x0A#8] then .error (.malformedFrame .badTerminator)
      else if computed ≠ found then .error (.checksumMismatch computed found)
      else .ok { serial := b.getD 2 0#8 ++ b.getD 3 0#8 ++ b.getD 4 0#8 ++ b.getD 5 0#8,
                 length := BitVec.ofNat 16 l, command := cmd, payload := (b.drop 10).take l, checksum := found } := by
  rw [parseFrame]
  refine ite_congr rfl (fun _ => rfl) fun long_enough => ?_
  refine ite_congr (propext (header_eq_iff (by omega)).not) (fun _ => rfl) fun _ => ?_
  have length_field : (be16 (slice b 6 8)).toNat = l := (be16_slice_toNat (by omega)).trans hl.symm
  have command_field : be16 (slice b 8 10) = cmd := (be16_slice (by omega)).trans hcmd.symm
  simp only [length_field, command_field]
  refine ite_congr rfl (fun _ => rfl) fun length_ok => ?_
  rw [not_not] at length_ok
  refine ite_congr rfl (fun _ => rfl) fun _ => ?_
  refine ite_congr (propext (terminator_eq_iff length_ok).not) (fun _ => rfl) fun _ => ?_
  have checksum_span : crc16 (slice b 0 (10 + l)) = computed := hcomputed.symm
  have checksum_field : be16 (slice b (10 + l) (12 + l)) = found := by
    rw [hfound, show 12 + l = 10 + l + 2 by omega, show 11 + l = 10 + l + 1 by omega]
    exact be16_slice (by omega)
  rw [checksum_span, checksum_field]
  refine ite_congr rfl (fun _ => rfl) fun _ => ?_
  have serial_field : be32 (slice b 2 6) = b.getD 2 0#8 ++ b.getD 3 0#8 ++ b.getD 4 0#8 ++ b.getD 5 0#8 :=
    be32_slice (by omega)
  have length_word : be16 (slice b 6 8) = BitVec.ofNat 16 l := by
    rw [← length_field, BitVec.ofNat_toNat, BitVec.setWidth_eq]
  have payload_field : slice b 10 (10 + l) = (b.drop 10).take l := by rw [slice, Nat.add_sub_cancel_left]
  rw [serial_field, length_word, payload_field]

/-- `FRAME.PARSE` answers the parser's result on the port and keeps every register. -/
theorem exec_frameParse (s : State) (b : Bytes) :
    exec (.frameParse b) s = .next { s with out := s.out ++ [.rsp (frameResult s.cfg b)] } := by
  rw [exec_eq_after, State.after_eq]
  rfl

/-- Settles O24: the parser's answer on the port is its six-step chain over the raw bytes. -/
theorem frameParseReportsFirstFailure : Obligations.FrameParseReportsFirstFailure := by
  unfold Obligations.FrameParseReportsFirstFailure
  intro s b l cmd computed found hl hcmd hcomputed hfound
  rw [exec_frameParse, frameResult, parseFrame_eq_raw s.cfg b hl hcmd hcomputed hfound]
  split_ifs <;> rfl

end Sys2Proof.Machine
end

section
/-! PROOFS. The statements about fragmenting and reassembly (42_fragment_reassembly.md). -/

namespace Sys2Proof.Machine

/-! ### The fields of a sub-packet -/

@[simp] theorem be8_enc8 (x : Byte) : be8 (enc8 x) = x := by simp [be8, enc8, beNat]

theorem be8_slice {b : Bytes} {i : Nat} (h : i < b.length) : be8 (slice b i (i + 1)) = b.getD i 0#8 := by
  rw [slice_eq_getD_cons (by omega) h, slice_self]
  exact be8_enc8 _

@[simp] theorem be32_enc32 (v : U32) : be32 (enc32 v) = v := by
  have join (i n : Nat) : v.extractLsb' (i + 8) n ++ v.extractLsb' i 8 = v.extractLsb' i (n + 8) :=
    BitVec.extractLsb'_append_extractLsb'_eq_extractLsb' rfl
  calc be32 (enc32 v)
      = v.extractLsb' 24 8 ++ v.extractLsb' 16 8 ++ v.extractLsb' 8 8 ++ v.extractLsb' 0 8 := be32_quad _ _ _ _
    _ = v.extractLsb' 16 16 ++ v.extractLsb' 8 8 ++ v.extractLsb' 0 8 := by rw [join 16 8]
    _ = v.extractLsb' 8 24 ++ v.extractLsb' 0 8 := by rw [join 8 16]
    _ = v.extractLsb' 0 32 := join 0 24
    _ = v := BitVec.extractLsb'_eq_self

/-- R76: with four distinct status bytes, each is read as the status it is written for. -/
theorem statusOf_statusByte {c : Cfg} (h : c.wf) (st : SpStatus) : c.statusOf (c.statusByte st) = some st := by
  obtain ⟨-, distinct, -⟩ := h
  simp only [List.nodup_cons, List.mem_cons, List.not_mem_nil, or_false, not_or] at distinct
  obtain ⟨⟨h12, h13, h14⟩, ⟨h23, h24⟩, h34, -⟩ := distinct
  cases st with
  | whole => simp [Cfg.statusOf, Cfg.statusByte]
  | start => simp [Cfg.statusOf, Cfg.statusByte, Ne.symm h12]
  | middle => simp [Cfg.statusOf, Cfg.statusByte, Ne.symm h13, Ne.symm h23]
  | last => simp [Cfg.statusOf, Cfg.statusByte, Ne.symm h14, Ne.symm h24, Ne.symm h34]

theorem statusOf_eq_none_iff {c : Cfg} {x : Byte} :
    c.statusOf x = none ↔ x ∉ [c.stNone, c.stStart, c.stMiddle, c.stEnd] := by
  unfold Cfg.statusOf
  split_ifs <;> simp [*]

/-! ### The sub-packet parser (R146) -/

section
variable {c : Cfg} {b : Bytes} {st : SpStatus}

theorem parseSubpkt_of_tooShort (h : b.length < 9) : parseSubpkt c b = .error .tooShort := by
  unfold parseSubpkt
  rw [if_pos h]

theorem parseSubpkt_of_badHeader (h : 9 ≤ b.length) (hh : be16 (slice b 0 2) ≠ 0xFAF5#16) :
    parseSubpkt c b = .error .badHeader := by
  unfold parseSubpkt
  rw [if_neg (Nat.not_lt.2 h), if_pos hh]

theorem parseSubpkt_of_badStatus (h : 9 ≤ b.length) (hh : be16 (slice b 0 2) = 0xFAF5#16)
    (hs : c.statusOf (be8 (slice b 2 3)) = none) : parseSubpkt c b = .error .badStatus := by
  unfold parseSubpkt
  rw [if_neg (Nat.not_lt.2 h), if_neg (not_not.2 hh), hs]

theorem parseSubpkt_of_lengthMismatch (h : 9 ≤ b.length) (hh : be16 (slice b 0 2) = 0xFAF5#16)
    (hs : c.statusOf (be8 (slice b 2 3)) = some st) (hl : b.length ≠ 9 + (be16 (slice b 7 9)).toNat) :
    parseSubpkt c b = .error .lengthMismatch := by
  unfold parseSubpkt
  rw [if_neg (Nat.not_lt.2 h), if_neg (not_not.2 hh), hs]
  exact if_pos hl

theorem parseSubpkt_of_valid (hh : be16 (slice b 0 2) = 0xFAF5#16)
    (hs : c.statusOf (be8 (slice b 2 3)) = some st) (hl : b.length = 9 + (be16 (slice b 7 9)).toNat) :
    parseSubpkt c b = .ok { status := st, packetId := be32 (slice b 3 7), data := slice b 9 b.length } := by
  unfold parseSubpkt
  rw [if_neg (by omega), if_neg (not_not.2 hh), hs, hl]
  exact if_neg (not_not.2 rfl)

end

/-- R146's second step, on the raw bytes. -/
theorem subpktHeader_eq_iff {b : Bytes} (h : 2 ≤ b.length) :
    be16 (slice b 0 2) = 0xFAF5#16 ↔ b.take 2 = [0xFA#8, 0xF5#8] :=
  be16_eq_iff (by rw [slice_length]; omega) _

/-- The parser accepts what `subpkt` writes, field by field. -/
theorem parseSubpkt_subpkt {c : Cfg} (h : c.wf) (st : SpStatus) (id : U32) {d : Bytes} (hd : d.length ≤ 65535) :
    parseSubpkt c (subpkt c st id d) = .ok { status := st, packetId := id, data := d } := by
  have header_field : slice (subpkt c st id d) 0 2 = enc16 0xFAF5#16 := rfl
  have status_field : slice (subpkt c st id d) 2 3 = enc8 (c.statusByte st) := rfl
  have id_field : slice (subpkt c st id d) 3 7 = enc32 id := rfl
  have length_field : slice (subpkt c st id d) 7 9 = enc16 (BitVec.ofNat 16 d.length) := rfl
  have data_field : slice (subpkt c st id d) 9 (subpkt c st id d).length = d :=
    List.take_of_length_le (by rw [subpkt_length]; exact Nat.le_of_eq (Nat.add_sub_cancel_left ..).symm)
  have length_ok : (subpkt c st id d).length = 9 + (be16 (slice (subpkt c st id d) 7 9)).toNat := by
    rw [length_field, be16_enc16, subpkt_length, BitVec.toNat_ofNat, Nat.mod_eq_of_lt (by omega)]
  rw [parseSubpkt_of_valid (st := st) (by rw [header_field, be16_enc16])
    (by rw [status_field, be8_enc8, statusOf_statusByte h]) length_ok, id_field, be32_enc32, data_field]

/-! ### Receiving a unit -/

/-- R162: whatever check fails, the reassembler is cleared and the check reported. -/
theorem exec_rx_of_malformed {s : State} {b : Bytes} {k : SubpktCheck} (h : parseSubpkt s.cfg b = .error k) :
    exec (.rx b) s = .next { s with
      regs := clearReassembly s.regs, out := s.out ++ [.err (.malformedSubPacket k)] } := by
  have effect_eq : effectOf s.cfg (.rx b) s.regs = malformedUnit k s.regs := by
    simp only [effectOf, receive, h]
  rw [exec_eq_after, effect_eq]
  rfl

/-- R150: an accepted unit runs the sub-packet it holds. -/
theorem exec_rx_of_accepted {s : State} {b : Bytes} {sp : SubPacket} (h : parseSubpkt s.cfg b = .ok sp) :
    exec (.rx b) s = exec sp.instr s := by
  have effect_eq : effectOf s.cfg (.rx b) s.regs = effectOf s.cfg sp.instr s.regs := by
    obtain ⟨st, id, d⟩ := sp
    simp only [effectOf, receive, h]
    cases st <;> rfl
  rw [exec_eq_after, exec_eq_after, effect_eq]

theorem exec_rx_subpkt {s : State} (h : s.cfg.wf) (st : SpStatus) (id : U32) {d : Bytes} (hd : d.length ≤ 65535) :
    exec (.rx (subpkt s.cfg st id d)) s = exec (SubPacket.instr { status := st, packetId := id, data := d }) s :=
  exec_rx_of_accepted (parseSubpkt_subpkt h st id hd)

/-- Settles O36: each clause is one failing check of the parser, read on the raw bytes. -/
theorem malformedSubpacketResetsReassembler : Obligations.MalformedSubpacketResetsReassembler := by
  unfold Obligations.MalformedSubpacketResetsReassembler
  intro s b k number failure
  have status_byte (h : 9 ≤ b.length) : be8 (slice b 2 3) = b.getD 2 0#8 := be8_slice (by omega)
  have length_word (h : 9 ≤ b.length) :
      (be16 (slice b 7 9)).toNat = (b.getD 7 0#8).toNat * 256 + (b.getD 8 0#8).toNat := be16_slice_toNat (by omega)
  rcases failure with ⟨rfl, rfl, short⟩ | ⟨rfl, rfl, long, header⟩ | ⟨rfl, rfl, long, header, status⟩ |
    ⟨rfl, rfl, long, header, status, mismatch⟩
  case inl => exact ⟨rfl, exec_rx_of_malformed (parseSubpkt_of_tooShort short)⟩
  all_goals have header_iff := subpktHeader_eq_iff (b := b) (by omega)
  · exact ⟨rfl, exec_rx_of_malformed (parseSubpkt_of_badHeader long (header_iff.not.2 header))⟩
  · refine ⟨rfl, exec_rx_of_malformed (parseSubpkt_of_badStatus long (header_iff.2 header) ?_)⟩
    rwa [status_byte long, statusOf_eq_none_iff]
  · obtain ⟨st, known⟩ := Option.ne_none_iff_exists'.1 (mt statusOf_eq_none_iff.1 (not_not.2 status))
    refine ⟨rfl, exec_rx_of_malformed (parseSubpkt_of_lengthMismatch (st := st) long (header_iff.2 header) ?_ ?_)⟩
    · rwa [status_byte long]
    · rwa [length_word long]

/-! ### The reassembler -/

/-- A silent effect emits nothing. -/
theorem State.after_silent (s : State) (r : Registers) : s.after (silent r) = .next { s with regs := r } := by
  rw [State.after_eq, silent_outs, List.append_nil, silent_regs]

/-- Settles O35: in `Idle` both are R159's notice. -/
theorem idleDiscardsMiddleAndEnd : Obligations.IdleDiscardsMiddleAndEnd := by
  unfold Obligations.IdleDiscardsMiddleAndEnd
  rintro s t id d idle rfl
  constructor
  · rw [exec_eq_after, effectOf, rxMiddle_of_idle idle]
    rfl
  · rw [exec_eq_after, effectOf, rxLast_of_idle idle]
    rfl

/-- Settles O32: the id decides between R153 and R154, for the `RX` as for the sub-packet it carries. -/
theorem middleAppendsOrAborts : Obligations.MiddleAppendsOrAborts := by
  unfold Obligations.MiddleAppendsOrAborts
  intro s id d wf hd assembling
  have rx_eq : exec (.rx (subpkt s.cfg .middle id d)) s = exec (.spMiddle id d) s := exec_rx_subpkt wf .middle id hd
  rw [rx_eq, exec_eq_after, effectOf]
  constructor
  · intro expected fits
    rw [rxMiddle_of_fits assembling expected fits, State.after_silent]
    exact ⟨_, rfl, rfl, rfl⟩
  · intro unexpected
    rw [rxMiddle_of_unexpected assembling unexpected]
    exact ⟨_, rfl, rfl, rfl⟩

/-- R161: delivering a frame writes the pending table at most (R183), nothing of the reassembler. -/
theorem deliver_regs (c : Cfg) (b : Bytes) (r : Registers) :
    ∃ table : List Slot, (deliver c b r).regs = { r with pend := table } := by
  rcases deliver_cases c b r with ⟨e, -, dropped⟩ | ⟨f, -, forwarded⟩ | ⟨f, x, -, -, -, response⟩
  · exact ⟨r.pend, by rw [dropped, raise_regs]⟩
  · exact ⟨r.pend, by rw [forwarded]; rfl⟩
  · rcases takeResponse_cases x r with ⟨-, resolved⟩ | ⟨-, stale⟩
    · exact ⟨_, by rw [response, resolved, resolve_regs]⟩
    · exact ⟨r.pend, by rw [response, stale, raise_regs]⟩

/-- Settles O33: the id decides between R155 and R156; what R155 delivers leaves the cleared reassembler as it is. -/
theorem endDeliversOrAborts : Obligations.EndDeliversOrAborts := by
  unfold Obligations.EndDeliversOrAborts
  rintro s cleared id d wf hd assembling rfl
  have rx_eq : exec (.rx (subpkt s.cfg .last id d)) s = exec (.spEnd id d) s := exec_rx_subpkt wf .last id hd
  obtain ⟨-, -, -, -, checks_id⟩ := wf
  rw [rx_eq, exec_eq_after, effectOf]
  constructor
  · intro expected fits
    rw [rxLast_of_fits assembling expected fits]
    obtain ⟨table, regs_eq⟩ := deliver_regs s.cfg (s.regs.rsmBuf.flatten ++ d) (clearReassembly s.regs)
    refine ⟨_, rfl, rfl, rfl, ?_⟩
    rw [regs_eq]
    exact ⟨rfl, rfl, rfl, rfl⟩
  · intro unexpected
    rw [rxLast_of_unexpected checks_id assembling unexpected]
    exact ⟨_, rfl, rfl, rfl⟩

/-! ### Fragmenting (R140 to R145) -/

/-- R12: `ceil(a/b)` is the least `q` with `q*b >= a`. -/
theorem ceilDiv_le_iff {a b q : Nat} (hb : 0 < b) : ceilDiv a b ≤ q ↔ a ≤ q * b := by
  rw [ceilDiv, ← Nat.lt_succ_iff, Nat.div_lt_iff_lt_mul hb, Nat.succ_mul]
  omega

theorem chunk_eq (b : Bytes) (cs i : Nat) : chunk b cs i = (b.drop (i * cs)).take cs := by
  rw [chunk, slice, List.take_eq_take_iff, List.length_drop, Nat.succ_mul]
  omega

section
variable {c : Cfg} {b : Bytes} {mtu : Nat} {base : U32}

theorem fragment_of_fits (h : b.length ≤ chunkSize mtu) : fragment c b mtu base = [subpkt c .whole base b] := by
  unfold fragment
  exact if_pos h

theorem fragment_of_long (h : chunkSize mtu < b.length) :
    fragment c b mtu base = (List.range (ceilDiv b.length (chunkSize mtu))).map fun i =>
      subpkt c (fragmentTag (ceilDiv b.length (chunkSize mtu)) i) (base + BitVec.ofNat 32 i)
        (chunk b (chunkSize mtu) i) := by
  unfold fragment
  exact if_neg (Nat.not_le.2 h)

theorem one_le_chunkSize (h : 10 ≤ mtu) : 1 ≤ chunkSize mtu := by
  unfold chunkSize
  omega

theorem two_le_ceilDiv (hm : 10 ≤ mtu) (h : chunkSize mtu < b.length) : 2 ≤ ceilDiv b.length (chunkSize mtu) := by
  have more_than_one : ¬ ceilDiv b.length (chunkSize mtu) ≤ 1 := by
    rw [ceilDiv_le_iff (one_le_chunkSize hm)]
    omega
  omega

/-- R143: the number of sub-packets is `ceil(len(b)/cs)`, but 1 for the empty input. -/
theorem fragment_length (hm : 10 ≤ mtu) :
    (fragment c b mtu base).length = max 1 (ceilDiv b.length (chunkSize mtu)) := by
  rcases le_or_gt b.length (chunkSize mtu) with fits | long
  · have at_most_one : ceilDiv b.length (chunkSize mtu) ≤ 1 := (ceilDiv_le_iff (one_le_chunkSize hm)).2 (by omega)
    rw [fragment_of_fits fits, max_eq_left at_most_one, List.length_singleton]
  · have := two_le_ceilDiv hm long
    rw [fragment_of_long long, List.length_map, List.length_range, max_eq_right (by omega)]

/-- R143 to R145: the tag, the id and the chunk of sub-packet `i`. -/
theorem getElem_fragment (hm : 10 ≤ mtu) {i : Nat} (h : i < (fragment c b mtu base).length) :
    (fragment c b mtu base)[i] = subpkt c
      (if (fragment c b mtu base).length = 1 then .whole else if i = 0 then .start
        else if i + 1 = (fragment c b mtu base).length then .last else .middle)
      (base + BitVec.ofNat 32 i) ((b.drop (i * chunkSize mtu)).take (chunkSize mtu)) := by
  rcases le_or_gt b.length (chunkSize mtu) with fits | long
  · simp only [fragment_of_fits fits, List.length_singleton, Nat.lt_one_iff] at h ⊢
    subst h
    simp [List.take_of_length_le fits]
  · have several := two_le_ceilDiv hm long
    have last_iff : i = ceilDiv b.length (chunkSize mtu) - 1 ↔ i + 1 = ceilDiv b.length (chunkSize mtu) := by omega
    simp only [fragment_of_long long, List.length_map, List.length_range, List.getElem_map, List.getElem_range,
      chunk_eq, fragmentTag, last_iff]
    rw [if_neg (by omega : ¬ ceilDiv b.length (chunkSize mtu) = 1)]

end

/-- `FRAG` under an admissible `mtu` answers the sub-packets and keeps every register. -/
theorem exec_frag {mtu : U32} (base : U32) (b : Bytes) (s : State) (low : 10 ≤ mtu.toNat) (high : mtu.toNat ≤ 65544) :
    exec (.frag mtu base b) s = .next { s with
      out := s.out ++ [.rsp (.packets (fragment s.cfg b mtu.toNat base))] } := by
  have admissible : ¬ (mtu.toNat < 10 ∨ mtu.toNat > Config.mtuMax) := by
    rw [Config.mtuMax]
    omega
  rw [exec_eq_after, effectOf, fragResult, if_neg admissible]
  rfl

/-- Settles O26: the count is the least that covers the input, and the parser reads back every sub-packet `FRAG` writes. -/
theorem fragCutsInputIntoSubpackets : Obligations.FragCutsInputIntoSubpackets := by
  unfold Obligations.FragCutsInputIntoSubpackets
  rintro s mtu base b cs wf low high rfl
  have cs_pos : 0 < chunkSize mtu.toNat := one_le_chunkSize low
  have count : (fragment s.cfg b mtu.toNat base).length = max 1 (ceilDiv b.length (chunkSize mtu.toNat)) :=
    fragment_length low
  refine ⟨fragment s.cfg b mtu.toNat base, exec_frag base b s low high, ?_, ?_, ?_, fun i h => ?_⟩
  · rw [count]
    exact le_max_left _ _
  · exact (ceilDiv_le_iff cs_pos).1 (count ▸ le_max_right _ _)
  · rcases le_or_gt (ceilDiv b.length (chunkSize mtu.toNat)) 1 with one | several
    · exact .inl (count.trans (max_eq_left one))
    · right
      have fewer_do_not_cover :
          (ceilDiv b.length (chunkSize mtu.toNat) - 1) * chunkSize mtu.toNat < b.length := by
        rw [← Nat.not_le, ← ceilDiv_le_iff cs_pos]
        omega
      rw [count, max_eq_right several.le]
      exact fewer_do_not_cover
  · have chunk_fits : ((b.drop (i * chunkSize mtu.toNat)).take (chunkSize mtu.toNat)).length ≤ mtu.toNat - 9 :=
      List.length_take_le _ _
    rw [getElem_fragment low h]
    refine ⟨parseSubpkt_subpkt wf _ _ (by omega), ?_⟩
    rw [subpkt_length]
    omega

end Sys2Proof.Machine
end

section
/-! PROOFS. The statements about dispatch and correlation (43_dispatch_correlation.md). -/

namespace Sys2Proof.Machine

/-! ### Parsing a frame that has the form of R71 -/

section
variable (serial : U32) (cmd : U16) (p : Bytes) (checksum terminator : U16)

theorem frameBytes_eq_body_append :
    frameBytes serial cmd p checksum terminator = frameBody serial cmd p ++ (enc16 checksum ++ enc16 terminator) :=
  List.append_assoc ..

@[simp] theorem frameBody_length : (frameBody serial cmd p).length = 10 + p.length := by
  simp only [frameBody, List.length_append, enc16_length, enc32_length]

/-- R116: the builder writes the frame whose checksum is that of its body. -/
theorem serialize_eq_frameBytes :
    serialize serial cmd p = frameBytes serial cmd p (crc16 (frameBody serial cmd p)) 0x0D0A#16 := rfl

/-- The span of the checksum (R116) is the frame without its last four bytes. -/
theorem serialize_take : (serialize serial cmd p).take (10 + p.length) = frameBody serial cmd p := by
  rw [serialize_eq_frameBytes, frameBytes_eq_body_append]
  exact List.take_left' (frameBody_length ..)

/-- R67: the `u16` length of an admissible payload is its length. -/
theorem lengthField_toNat {p : Bytes} (hp : p.length ≤ 65535) : (BitVec.ofNat 16 p.length).toNat = p.length := by
  rw [BitVec.toNat_ofNat]
  exact Nat.mod_eq_of_lt (by omega)

/-- The frame that the parser reads from `frameBytes`. -/
def frameOf : Frame :=
  { serial := serial, length := BitVec.ofNat 16 p.length, command := cmd, payload := p, checksum := checksum }

variable {p}

/-- R121 on bytes in the form of a frame: steps 1 to 3 pass, and steps 4 to 6 read the fields that were written. -/
theorem parseFrame_frameBytes (c : Cfg) (hp : p.length ≤ 65535) :
    parseFrame c (frameBytes serial cmd p checksum terminator) =
      if c.isCommand cmd = false then .error (.unknownCommand cmd)
      else if terminator ≠ 0x0D0A#16 then .error (.malformedFrame .badTerminator)
      else if crc16 (frameBody serial cmd p) ≠ checksum then
        .error (.checksumMismatch (crc16 (frameBody serial cmd p)) checksum)
      else .ok (frameOf serial cmd p checksum) := by
  have body_length := frameBody_length serial cmd p
  have header_field : slice (frameBytes serial cmd p checksum terminator) 0 2 = enc16 0xAA55#16 := rfl
  have serial_field : slice (frameBytes serial cmd p checksum terminator) 2 6 = enc32 serial := rfl
  have length_field : slice (frameBytes serial cmd p checksum terminator) 6 8 = enc16 (BitVec.ofNat 16 p.length) := rfl
  have command_field : slice (frameBytes serial cmd p checksum terminator) 8 10 = enc16 cmd := rfl
  have span : slice (frameBytes serial cmd p checksum terminator) 0 (10 + p.length) = frameBody serial cmd p := by
    rw [frameBytes_eq_body_append, slice_append_left body_length.ge, slice_zero_of_length_le body_length.le]
  have payload_field : slice (frameBytes serial cmd p checksum terminator) 10 (10 + p.length) = p := by
    rw [frameBytes_eq_body_append, slice_append_left body_length.ge, frameBody, slice_append_right (by simp)]
    exact slice_zero_of_length_le (by simp)
  have checksum_field :
      slice (frameBytes serial cmd p checksum terminator) (10 + p.length) (12 + p.length) = enc16 checksum := by
    rw [frameBytes_eq_body_append, slice_append_right body_length.le, body_length, Nat.sub_self,
      show 12 + p.length - (10 + p.length) = 2 by omega]
    rfl
  have terminator_field :
      slice (frameBytes serial cmd p checksum terminator) (12 + p.length) (14 + p.length) = enc16 terminator := by
    rw [frameBytes_eq_body_append, slice_append_right (by omega), body_length,
      show 12 + p.length - (10 + p.length) = 2 by omega, show 14 + p.length - (10 + p.length) = 4 by omega]
    rfl
  unfold parseFrame
  simp only [header_field, serial_field, length_field, command_field, be16_enc16, be32_enc32, lengthField_toNat hp,
    frameBytes_length, span, payload_field, checksum_field, terminator_field]
  rw [if_neg (by omega), if_neg (not_not.2 rfl), if_neg (not_not.2 rfl)]
  rfl

end

/-! ### Delivering a valid frame -/

section
variable {c : Cfg} {serial : U32} {cmd : U16} {p : Bytes} (r : Registers)

/-- R127: what the builder writes under a recognised command is accepted, and routed. -/
theorem deliver_serialize (hcmd : c.isCommand cmd = true) (hp : p.length ≤ 65535) :
    deliver c (serialize serial cmd p) r =
      route c (frameOf serial cmd p (crc16 (frameBody serial cmd p))) r := by
  have accepted : parseFrame c (serialize serial cmd p) =
      .ok (frameOf serial cmd p (crc16 (frameBody serial cmd p))) := by
    rw [serialize_eq_frameBytes, parseFrame_frameBytes _ _ _ _ _ hp, hcmd, if_neg Bool.noConfusion,
      if_neg (not_not.2 rfl), if_neg (not_not.2 rfl)]
  simp only [deliver, accepted]

/-- R181, R184: without a 5-byte payload or without a reply-bearing command a frame is no response. -/
theorem route_of_not_response {f : Frame} (h : ¬ (f.length = 5#16 ∧ c.isReplyBearing f.command = true)) :
    route c f r = forward f r := by
  unfold route asResponse
  by_cases bearing : c.isReplyBearing f.command = true
  · have other_length : f.length ≠ 5#16 := fun five => h ⟨five, bearing⟩
    rw [if_pos bearing, if_neg other_length]
  · rw [if_neg bearing]

/-- R126, R180: the frame of a response payload is taken as that response. -/
theorem route_of_response (hreply : c.isReplyBearing cmd = true) (responded : U32) (status : Byte) (checksum : U16) :
    route c (frameOf serial cmd (responsePayload responded status) checksum) r =
      takeResponse { respondedSerial := responded, status := status } r := by
  have fields : asResponse (frameOf serial cmd (responsePayload responded status) checksum) =
      some { respondedSerial := responded, status := status } := by
    have serial_field : slice (responsePayload responded status) 0 4 = enc32 responded := rfl
    have status_field : slice (responsePayload responded status) 4 5 = enc8 status := rfl
    have five : (frameOf serial cmd (responsePayload responded status) checksum).length = 5#16 := rfl
    rw [asResponse, if_pos five, frameOf, serial_field, status_field, be32_enc32, be8_enc8]
  have bearing : c.isReplyBearing (frameOf serial cmd (responsePayload responded status) checksum).command = true := hreply
  rw [route, if_pos bearing, fields]

/-- R182: a response to a serial that is not pending is a notice. -/
theorem takeResponse_of_stale {x : Response} (h : x.respondedSerial ∉ pendingSerials r.pend) :
    takeResponse x r = raise (.staleReply x.respondedSerial) r := by
  rcases takeResponse_cases x r with ⟨pending, -⟩ | ⟨-, stale⟩
  · exact absurd (isPending_iff.1 pending) h
  · exact stale

end

/-- R151, R160: the data of a `none` sub-packet is delivered, whatever the id and the reassembler. -/
theorem exec_spNone (s : State) (id : U32) (d : Bytes) : exec (.spNone id d) s = s.after (deliver s.cfg d s.regs) :=
  exec_eq_after ..

/-- A frame with the builder's checksum and terminator at the frame parser is delivered as the builder wrote it. -/
theorem exec_frameCmd_valid (s : State) (serial : U32) (cmd : U16) (p : Bytes) :
    exec (.frameCmd serial cmd p (crc16 ((serialize serial cmd p).take (10 + p.length))) 0x0D0A#16) s =
      s.after (deliver s.cfg (serialize serial cmd p) s.regs) := by
  rw [serialize_take, exec_eq_after]
  rfl

theorem exec_frameResponse_valid (s : State) (serial : U32) (cmd : U16) (responded : U32) (status : Byte) :
    exec (.frameResponse serial cmd responded status
        (crc16 ((serialize serial cmd (responsePayload responded status)).take 15)) 0x0D0A#16) s =
      s.after (deliver s.cfg (serialize serial cmd (responsePayload responded status)) s.regs) :=
  exec_frameCmd_valid s serial cmd (responsePayload responded status)

/-- Settles O37: the frame is parsed back and, being no response, forwarded with the fields it was built from. -/
theorem applicationFrameIsForwarded : Obligations.ApplicationFrameIsForwarded := by
  unfold Obligations.ApplicationFrameIsForwarded
  rintro s t id serial cmd p hcmd hp no_response rfl
  have five_bytes (h : BitVec.ofNat 16 p.length = 5#16) : p.length = 5 := by
    rw [← lengthField_toNat hp, h]
    rfl
  have forwarded : deliver s.cfg (serialize serial cmd p) s.regs = ⟨s.regs, [.app serial cmd p]⟩ := by
    rw [deliver_serialize s.regs hcmd hp,
      route_of_not_response s.regs fun ⟨five, bearing⟩ => no_response ⟨five_bytes five, bearing⟩]
    rfl
  rw [exec_spNone, exec_frameCmd_valid, forwarded]
  exact ⟨rfl, rfl⟩

/-- Settles O40: the frame is parsed back, taken as a response, and its serial found stale. -/
theorem staleReplyIsDropped : Obligations.StaleReplyIsDropped := by
  unfold Obligations.StaleReplyIsDropped
  rintro s t id serial responded cmd checksum status p hcmd hreply payload rfl stale rfl
  obtain rfl : p = responsePayload responded status := payload
  have dropped : deliver s.cfg (serialize serial cmd (responsePayload responded status)) s.regs =
      raise (.staleReply responded) s.regs := by
    rw [deliver_serialize s.regs hcmd (by simp), route_of_response s.regs hreply, takeResponse_of_stale s.regs stale]
  rw [exec_spNone, exec_frameResponse_valid, dropped]
  exact ⟨rfl, rfl⟩

/-! ### Time -/

/-- R186 and R187: a registration is due when its elapsed time, as a number, has reached its timeout. -/
theorem expired_iff {now : U64} {q : Slot} :
    expired now q = true ↔ q.valid = true ∧ q.timeout.toNat ≤ (now - q.issuedAt).toNat := by
  have widened : (q.timeout.zeroExtend 64).toNat = q.timeout.toNat := BitVec.toNat_setWidth_of_le (by decide)
  rw [expired, Bool.and_eq_true, decide_eq_true_iff, BitVec.le_def, widened]

/-- Settles O49: the test of R187 determines which slots are due. -/
theorem tickResolvesExpired : Obligations.TickResolvesExpired := by
  unfold Obligations.TickResolvesExpired
  rintro s now due rfl hdue
  have due_eq : due = expired (s.regs.time + 1#64) :=
    funext fun q => Bool.eq_iff_iff.2 ((hdue q).trans expired_iff.symm)
  rw [due_eq, exec_eq_after]
  rfl

/-! ### Cancellation -/

/-- Releasing every registration clears every valid bit: a slot that is free stays as it is. -/
theorem releaseAll_valid (ps : List Slot) : releaseAll (·.valid) ps = ps.map Slot.release := by
  refine List.map_congr_left fun p _ => ?_
  by_cases occupied : p.valid = true
  · rw [if_pos occupied]
  · rw [if_neg occupied, Slot.release, ← Bool.eq_false_of_not_eq_true occupied]

theorem countP_valid (ps : List Slot) : ps.countP (·.valid) = (pendingSerials ps).length := by
  rw [pendingSerials, List.length_map, List.countP_eq_length_filter]

/-- Settles O51: a serial is registered at most once, so releasing its first registration releases every one. -/
theorem cancelRemovesOneSilently : Obligations.CancelRemovesOneSilently := by
  unfold Obligations.CancelRemovesOneSilently
  rintro s x ⟨-, -, -, unique, -⟩
  have registered_iff : s.regs.pend.any (Slot.holds x) = true ↔ x ∈ pendingSerials s.regs.pend := isPending_iff
  have released : releaseFirst (Slot.holds x) s.regs.pend = s.regs.pend.map fun q =>
      if q.valid = true ∧ q.serial = x then { q with valid := false } else q := by
    rw [releaseFirst_holds unique]
    exact List.map_congr_left fun q _ => if_congr holds_iff rfl rfl
  rw [exec_eq_after, effectOf, cancelOne, released, State.after_eq, respond_regs, respond_outs]
  simp only [registered_iff]

/-- Settles O52: every valid bit is cleared, and the answer counts the valid slots. -/
theorem cancelAllRemovesEverySilently : Obligations.CancelAllRemovesEverySilently := by
  unfold Obligations.CancelAllRemovesEverySilently
  intro s
  rw [exec_eq_after, effectOf, cancelEvery, releaseAll_valid, countP_valid]
  rfl

/-! ### Transport status -/

/-- Settles O53: the clamped value is the only one of the register with that number. -/
theorem transportStatusIsStored : Obligations.TransportStatusIsStored := by
  unfold Obligations.TransportStatusIsStored
  intro s v m clamped
  have stored : clampMtu v = m := Fin.ext clamped.symm
  constructor
  · rw [exec_eq_after, effectOf, State.after_silent, stored]
  · rw [exec_eq_after, effectOf, State.after_silent]

/-- R196: the registers `LINK_DOWN` leaves once the reassembler is cleared. -/
def disconnected (r : Registers) : Registers :=
  clearReassembly { r with link := false, mtu := 0, pend := r.pend.map Slot.release }

/-- R196: in normal form an idle reassembler is as cleared as an aborted one, which alone is noticed. -/
theorem disconnect_eq {r : Registers} (h : r.reassemblerOk) :
    disconnect r = ⟨disconnected r, ((pendingSerials r.pend).map fun x => .done x .linkDown) ++
      (if r.rsmState = .assembling then [.err (.reassemblyAborted .linkDown)] else [])⟩ := by
  have resolved : resolveAll (·.valid) .linkDown { r with link := false, mtu := 0 } =
      ⟨{ r with link := false, mtu := 0, pend := r.pend.map Slot.release },
        (pendingSerials r.pend).map fun x => .done x .linkDown⟩ := by
    rw [resolveAll, releaseAll_valid, pendingSerials, List.map_map]
    rfl
  rw [disconnect, resolved, Effect.andThen]
  rcases r.rsmState_cases with idle | assembling
  · have cleared : disconnected r = { r with link := false, mtu := 0, pend := r.pend.map Slot.release } :=
      clearReassembly_of_idle h idle
    simp [idle, cleared]
  · simp [assembling, disconnected]

/-- Settles O54: the effect of `LINK_DOWN` in normal form, `DONE`s before the notice. -/
theorem linkDownResolvesEverything : Obligations.LinkDownResolvesEverything := by
  unfold Obligations.LinkDownResolvesEverything
  intro s h
  rw [exec_eq_after, effectOf, disconnect_eq h, State.after_eq, List.append_assoc]
  rfl

end Sys2Proof.Machine
end

section
/-! PROOFS. The statements about reset and hazards (70_reset_and_hazards.md). -/

namespace Sys2Proof.Machine

/-- R39: after reset no slot of the pending table is valid. -/
theorem resetRegisters_pend_invalid {c : Cfg} {p : Slot} (h : p ∈ (resetRegisters c).pend) : p.valid = false := by
  rw [resetRegisters_pend] at h
  rw [List.eq_of_mem_replicate h, freeSlot_valid]

/-- R260: `RESET` replaces the registers by those of R39, whatever they held, and answers `Ack`. -/
theorem exec_reset (s : State) :
    exec .reset s = .next { s with regs := resetRegisters s.cfg, out := s.out ++ [.rsp .ack] } := by
  rw [exec_eq_after, effectOf, State.after_eq, respond_regs, respond_outs]

/-- Settles O13: the table of R39 has one free slot per configured registration. -/
theorem resetSetsEveryRegister : Obligations.ResetSetsEveryRegister := by
  unfold Obligations.ResetSetsEveryRegister
  intro s
  have one_slot_each : (resetRegisters s.cfg).pend.length = s.cfg.nPending := List.length_replicate
  exact ⟨(resetRegisters s.cfg).pend, one_slot_each, fun _ => resetRegisters_pend_invalid, exec_reset s⟩

end Sys2Proof.Machine
end

section
/-! PROOFS. Decoding and encoding (30_encoding.md): the operands of a message, the two directions of the round trip, and what a
step does with the message it takes. -/

namespace Sys2Proof.Machine

/-! ### Integers of the codec -/

theorem toNat_append_eq_add {v w : Nat} (x : BitVec v) (y : BitVec w) :
    (x ++ y).toNat = x.toNat * 2 ^ w + y.toNat := by
  rw [BitVec.toNat_append, ← Nat.shiftLeft_add_eq_or_of_lt y.isLt, Nat.shiftLeft_eq]

/-- R54: the weights of the four bytes. -/
theorem be32_quad_toNat (x y z w : Byte) :
    (be32 [x, y, z, w]).toNat = x.toNat * 2 ^ 24 + y.toNat * 2 ^ 16 + z.toNat * 2 ^ 8 + w.toNat := by
  rw [be32_quad, toNat_append_eq_add, toNat_append_eq_add, toNat_append_eq_add]
  omega

theorem enc32_be32_quad (x y z w : Byte) : enc32 (be32 [x, y, z, w]) = [x, y, z, w] := by
  have byte0 : (x ++ y ++ z ++ w).extractLsb' 24 8 = x :=
    (BitVec.extractLsb'_append_eq_of_le (by decide)).trans
      ((BitVec.extractLsb'_append_eq_of_le (by decide)).trans BitVec.extractLsb'_append_eq_left)
  have byte1 : (x ++ y ++ z ++ w).extractLsb' 16 8 = y :=
    (BitVec.extractLsb'_append_eq_of_le (by decide)).trans
      ((BitVec.extractLsb'_append_eq_of_le (by decide)).trans BitVec.extractLsb'_append_eq_right)
  have byte2 : (x ++ y ++ z ++ w).extractLsb' 8 8 = z :=
    (BitVec.extractLsb'_append_eq_of_le (by decide)).trans BitVec.extractLsb'_append_eq_right
  have byte3 : (x ++ y ++ z ++ w).extractLsb' 0 8 = w := BitVec.extractLsb'_append_eq_right
  rw [be32_quad, enc32, byte0, byte1, byte2, byte3]

/-- R54: on 4-byte strings the two directions of the codec are inverses. -/
theorem enc32_be32 {b : Bytes} (h : b.length = 4) : enc32 (be32 b) = b := by
  match b, h with
  | [x, y, z, w], _ => exact enc32_be32_quad x y z w

theorem enc16_be16 {b : Bytes} (h : b.length = 2) : enc16 (be16 b) = b :=
  ((be16_eq_iff h _).1 rfl).symm

theorem enc8_be8 {b : Bytes} (h : b.length = 1) : enc8 (be8 b) = b := by
  obtain ⟨x, rfl⟩ := List.length_eq_one_iff.1 h
  exact congrArg enc8 (be8_enc8 x)

theorem slice_length_of_le {b : Bytes} {j : Nat} (h : j ≤ b.length) (i : Nat) : (slice b i j).length = j - i := by
  rw [slice_length, Nat.min_eq_left (Nat.sub_le_sub_right h i)]

theorem enc32_be32_slice {b : Bytes} {i : Nat} (h : i + 4 ≤ b.length) :
    enc32 (be32 (slice b i (i + 4))) = slice b i (i + 4) :=
  enc32_be32 ((slice_length_of_le h i).trans (Nat.add_sub_cancel_left ..))

theorem enc16_be16_slice {b : Bytes} {i : Nat} (h : i + 2 ≤ b.length) :
    enc16 (be16 (slice b i (i + 2))) = slice b i (i + 2) :=
  enc16_be16 ((slice_length_of_le h i).trans (Nat.add_sub_cancel_left ..))

theorem enc8_be8_slice {b : Bytes} {i : Nat} (h : i + 1 ≤ b.length) :
    enc8 (be8 (slice b i (i + 1))) = slice b i (i + 1) :=
  enc8_be8 ((slice_length_of_le h i).trans (Nat.add_sub_cancel_left ..))

/-- A length field of 2 bytes and the length it stands for determine each other (R67). -/
theorem ofNat_eq_of_toNat_eq {w n : Nat} {v : BitVec w} (h : v.toNat = n) : BitVec.ofNat w n = v := by
  rw [← h, BitVec.ofNat_toNat, BitVec.setWidth_eq]

/-- The three-part cut of a string at two positions. -/
theorem slice_cut (b : Bytes) {i j : Nat} (h : i ≤ j) : b.take i ++ slice b i j ++ b.drop j = b := by
  have to_j : b.take i ++ slice b i j = b.take j := slice_append_slice b (Nat.zero_le i) h
  rw [to_j, List.take_append_drop]

/-- A slice of a slice is a slice. -/
theorem slice_slice {b : Bytes} {i j k l : Nat} (h : i + l ≤ j) : slice (slice b i j) k l = slice b (i + k) (i + l) := by
  rw [slice, slice, slice, List.drop_take, List.take_take, List.drop_drop, Nat.add_sub_add_left,
    Nat.min_eq_left (by omega)]

/-! ### The operands of a message (R86, R87) -/

theorem counted_append {head p : Bytes} (hp : fitsMessage p = true) :
    counted head.length (head ++ encLen p ++ p) = some (head, p) := by
  have fits : p.length < 2 ^ 32 := by simpa [fitsMessage] using hp
  have length_field : slice (head ++ encLen p ++ p) head.length (head.length + 4) = encLen p := by
    rw [slice_append_left (by simp), slice_append_right le_rfl, Nat.sub_self, Nat.add_sub_cancel_left]
    rfl
  have announced : (be32 (encLen p)).toNat = p.length := by
    rw [encLen, be32_enc32, BitVec.toNat_ofNat, Nat.mod_eq_of_lt fits]
  have total : (head ++ encLen p ++ p).length = head.length + 4 + p.length := by simp; omega
  rw [counted, length_field, announced, total, if_neg (by omega), if_pos rfl, List.append_assoc, List.take_left' rfl,
    ← List.append_assoc, List.drop_left' (by simp)]

/-- What `counted` accepts is the fixed part, the length of the byte string, and the byte string. -/
theorem eq_of_counted {n : Nat} {body head p : Bytes} (h : counted n body = some (head, p)) :
    head.length = n ∧ fitsMessage p = true ∧ body = head ++ encLen p ++ p := by
  unfold counted at h
  split_ifs at h with short exact
  obtain ⟨rfl, rfl⟩ := Prod.mk.inj (Option.some.inj h)
  have announced : (be32 (slice body n (n + 4))).toNat = (body.drop (n + 4)).length := by
    rw [List.length_drop, exact, Nat.add_sub_cancel_left]
  have length_field : encLen (body.drop (n + 4)) = slice body n (n + 4) := by
    rw [encLen, ofNat_eq_of_toNat_eq announced, enc32_be32_slice (by omega)]
  refine ⟨List.length_take_of_le (by omega), ?_, ?_⟩
  · rw [fitsMessage, decide_eq_true_iff, ← announced]
    exact BitVec.isLt _
  · rw [length_field, slice_cut body (by omega)]

theorem bare_eq_some {i j : Instr} {body : Bytes} : bare i body = some j ↔ body = [] ∧ i = j := by
  simp [bare]

theorem word32_enc32 (f : U32 → Instr) (v : U32) : word32 f (enc32 v) = some (f v) := by
  rw [word32, if_pos (enc32_length v), be32_enc32]

theorem eq_of_word32 {f : U32 → Instr} {body : Bytes} {i : Instr} (h : word32 f body = some i) :
    ∃ v, i = f v ∧ body = enc32 v := by
  unfold word32 at h
  split_ifs at h with four
  exact ⟨be32 body, (Option.some.inj h).symm, (enc32_be32 four).symm⟩

/-- The `flags` byte that `SEND` is encoded with (R87). -/
def flagByte (expectsReply : Bool) : Byte := if expectsReply then 1#8 else 0#8

theorem sendOperands_append (cmd : U16) (expectsReply : Bool) (timeout : U32) (p : Bytes) :
    sendOperands (enc16 cmd ++ enc8 (flagByte expectsReply) ++ enc32 timeout) p =
      some (.send cmd expectsReply timeout p) := by
  have cmd_field : slice (enc16 cmd ++ enc8 (flagByte expectsReply) ++ enc32 timeout) 0 2 = enc16 cmd := rfl
  have flag_field : slice (enc16 cmd ++ enc8 (flagByte expectsReply) ++ enc32 timeout) 2 3 =
    enc8 (flagByte expectsReply) := rfl
  have timeout_field : slice (enc16 cmd ++ enc8 (flagByte expectsReply) ++ enc32 timeout) 3 7 = enc32 timeout := rfl
  have reserved_zero : flagByte expectsReply &&& 0xFE#8 = 0#8 := by cases expectsReply <;> rfl
  have reply_bit : (flagByte expectsReply).getLsbD 0 = expectsReply := by cases expectsReply <;> rfl
  rw [sendOperands, cmd_field, flag_field, timeout_field, be8_enc8, if_pos reserved_zero, reply_bit, be16_enc16,
    be32_enc32]

/-- R87: a byte whose bits 7 to 1 are 0 is the flag of its bit 0. -/
theorem eq_flagByte {x : Byte} (h : x &&& 0xFE#8 = 0#8) : x = flagByte (x.getLsbD 0) := by
  refine BitVec.eq_of_getLsbD_eq fun i hi => ?_
  have masked : (x &&& 0xFE#8).getLsbD i = false := h ▸ BitVec.getLsbD_zero
  rw [BitVec.getLsbD_and] at masked
  obtain rfl | upper : i = 0 ∨ 1 ≤ i := by omega
  · cases x.getLsbD 0 <;> rfl
  · have mask_set : (0xFE#8).getLsbD i = true := by interval_cases i <;> rfl
    have flag_clear (b : Bool) : (flagByte b).getLsbD i = false := by cases b <;> interval_cases i <;> rfl
    rw [flag_clear, ← masked, mask_set, Bool.and_true]

theorem eq_of_sendOperands {head p : Bytes} {i : Instr} (hlen : head.length = 7) (h : sendOperands head p = some i) :
    ∃ cmd expectsReply timeout, i = .send cmd expectsReply timeout p ∧
      head = enc16 cmd ++ enc8 (flagByte expectsReply) ++ enc32 timeout := by
  unfold sendOperands at h
  simp only at h
  split_ifs at h with reserved_zero
  refine ⟨_, _, _, (Option.some.inj h).symm, ?_⟩
  rw [← eq_flagByte reserved_zero, enc16_be16_slice (i := 0) (by omega), enc8_be8_slice (i := 2) (by omega),
    enc32_be32_slice (i := 3) (by omega), slice_append_slice _ (by omega) (by omega),
    slice_append_slice _ (by omega) (by omega), slice_zero_of_length_le hlen.le]

/-! ### Messages -/

/-- What an opcode with no fixed operands accepts before its byte string. -/
theorem eq_of_counted_zero {body head p : Bytes} (h : counted 0 body = some (head, p)) :
    fitsMessage p = true ∧ body = encLen p ++ p := by
  obtain ⟨no_head, fits, rfl⟩ := eq_of_counted h
  rw [List.length_eq_zero_iff.1 no_head, List.nil_append]
  exact ⟨fits, rfl⟩

/-- A message that decodes is the encoding of a well-formed instruction, whatever the configuration. -/
theorem encode_of_decodeMessage (c : Cfg) {m : Bytes} {i : Instr} (h : decodeMessage m = some i) :
    i.wellFormed c = true ∧ encode c i = .message m := by
  unfold decodeMessage at h
  split at h
  case h_1 => cases h
  case h_2 op body =>
    split at h
    case h_1 | h_8 | h_10 | h_11 | h_13 =>
      obtain ⟨rfl, rfl⟩ := bare_eq_some.1 h
      exact ⟨rfl, rfl⟩
    case h_7 | h_9 =>
      obtain ⟨v, rfl, rfl⟩ := eq_of_word32 h
      exact ⟨rfl, rfl⟩
    case h_2 | h_4 | h_12 =>
      obtain ⟨⟨head, p⟩, operands, rfl⟩ := Option.map_eq_some_iff.1 h
      obtain ⟨fits, rfl⟩ := eq_of_counted_zero operands
      exact ⟨fits, rfl⟩
    case h_3 =>
      obtain ⟨⟨head, p⟩, operands, rfl⟩ := Option.map_eq_some_iff.1 h
      obtain ⟨six, fits, rfl⟩ := eq_of_counted operands
      have serial_field : enc32 (be32 (slice head 0 4)) = slice head 0 4 := enc32_be32_slice (i := 0) (by omega)
      have cmd_field : enc16 (be16 (slice head 4 6)) = slice head 4 6 := enc16_be16_slice (i := 4) (by omega)
      have joined : slice head 0 4 ++ slice head 4 6 = head := by
        rw [slice_append_slice _ (by omega) (by omega), slice_zero_of_length_le six.le]
      exact ⟨fits, by simp only [encode, serial_field, cmd_field, joined]⟩
    case h_5 =>
      obtain ⟨⟨head, p⟩, operands, rfl⟩ := Option.map_eq_some_iff.1 h
      obtain ⟨eight, fits, rfl⟩ := eq_of_counted operands
      have mtu_field : enc32 (be32 (slice head 0 4)) = slice head 0 4 := enc32_be32_slice (i := 0) (by omega)
      have base_field : enc32 (be32 (slice head 4 8)) = slice head 4 8 := enc32_be32_slice (i := 4) (by omega)
      have joined : slice head 0 4 ++ slice head 4 8 = head := by
        rw [slice_append_slice _ (by omega) (by omega), slice_zero_of_length_le eight.le]
      exact ⟨fits, by simp only [encode, mtu_field, base_field, joined]⟩
    case h_6 =>
      obtain ⟨⟨head, p⟩, operands, send⟩ := Option.bind_eq_some_iff.1 h
      obtain ⟨seven, fits, rfl⟩ := eq_of_counted operands
      obtain ⟨cmd, expectsReply, timeout, rfl, rfl⟩ := eq_of_sendOperands seven send
      exact ⟨fits, rfl⟩
    case h_14 => cases h

section
variable {p : Bytes} (hp : fitsMessage p = true)
include hp

theorem counted_zero : counted 0 (encLen p ++ p) = some ([], p) := counted_append (head := []) hp

theorem decodeMessage_rxMessage : decodeMessage (rxMessage p) = some (.rx p) := by
  change (counted 0 (encLen p ++ p)).map _ = _
  rw [counted_zero hp]
  rfl

end

/-- The encoding of a well-formed instruction, where it is a message, decodes to that instruction. -/
theorem decodeMessage_of_encode {c : Cfg} {m : Bytes} {i : Instr} (wf : i.wellFormed c = true)
    (h : encode c i = .message m) : decodeMessage m = some i := by
  cases i with
  | reset | cancelAll | linkUp | linkDown | tick => cases h; rfl
  | cancel serial => cases h; exact word32_enc32 _ serial
  | setMtu v => cases h; exact word32_enc32 _ v
  | crcCalc b =>
    cases h
    change (counted 0 (encLen b ++ b)).map _ = _
    rw [counted_zero wf]
    rfl
  | frameParse b =>
    cases h
    change (counted 0 (encLen b ++ b)).map _ = _
    rw [counted_zero wf]
    rfl
  | rx b => cases h; exact decodeMessage_rxMessage wf
  | frameBuild serial cmd p =>
    cases h
    have operands : counted 6 (enc32 serial ++ enc16 cmd ++ encLen p ++ p) = some (enc32 serial ++ enc16 cmd, p) :=
      counted_append wf
    have serial_field : slice (enc32 serial ++ enc16 cmd) 0 4 = enc32 serial := rfl
    have cmd_field : slice (enc32 serial ++ enc16 cmd) 4 6 = enc16 cmd := rfl
    change (counted 6 _).map _ = _
    rw [operands, Option.map_some, serial_field, cmd_field, be32_enc32, be16_enc16]
  | frag mtu base p =>
    cases h
    have operands : counted 8 (enc32 mtu ++ enc32 base ++ encLen p ++ p) = some (enc32 mtu ++ enc32 base, p) :=
      counted_append wf
    have mtu_field : slice (enc32 mtu ++ enc32 base) 0 4 = enc32 mtu := rfl
    have base_field : slice (enc32 mtu ++ enc32 base) 4 8 = enc32 base := rfl
    change (counted 8 _).map _ = _
    rw [operands, Option.map_some, mtu_field, base_field, be32_enc32, be32_enc32]
  | send cmd expectsReply timeout p =>
    cases h
    have operands : counted 7 (enc16 cmd ++ enc8 (flagByte expectsReply) ++ enc32 timeout ++ encLen p ++ p) =
        some (enc16 cmd ++ enc8 (flagByte expectsReply) ++ enc32 timeout, p) := counted_append wf
    change (counted 7 _).bind _ = _
    exact (congrArg (Option.bind · _) operands).trans (sendOperands_append cmd expectsReply timeout p)
  | _ => cases h

/-! ### Frames (R71, R74) -/

section
variable (serial : U32) (cmd : U16) (p : Bytes) (checksum terminator : U16)

theorem frameBytes_payload : slice (frameBytes serial cmd p checksum terminator) 10 (10 + p.length) = p := by
  have body_length := frameBody_length serial cmd p
  rw [frameBytes_eq_body_append, slice_append_left body_length.ge, frameBody, slice_append_right (by simp)]
  exact slice_zero_of_length_le (by simp)

theorem frameBytes_checksum :
    slice (frameBytes serial cmd p checksum terminator) (10 + p.length) (12 + p.length) = enc16 checksum := by
  have body_length := frameBody_length serial cmd p
  rw [frameBytes_eq_body_append, slice_append_right body_length.le, body_length, Nat.sub_self,
    show 12 + p.length - (10 + p.length) = 2 by omega]
  rfl

theorem frameBytes_terminator :
    slice (frameBytes serial cmd p checksum terminator) (12 + p.length) (14 + p.length) = enc16 terminator := by
  have body_length := frameBody_length serial cmd p
  rw [frameBytes_eq_body_append, slice_append_right (by omega), body_length,
    show 12 + p.length - (10 + p.length) = 2 by omega, show 14 + p.length - (10 + p.length) = 4 by omega]
  rfl

/-- The instruction of a frame (log 8): its name depends on the payload's length and the command. -/
def frameInstr (c : Cfg) : Instr :=
  if p.length = 5 ∧ c.isReplyBearing cmd = true then
    .frameResponse serial cmd (be32 (slice p 0 4)) (be8 (slice p 4 5)) checksum terminator
  else .frameCmd serial cmd p checksum terminator

variable {p}

theorem decodeFrame_frameBytes (c : Cfg) (hp : p.length ≤ 65535) :
    decodeFrame c (frameBytes serial cmd p checksum terminator) =
      .ok (frameInstr serial cmd p checksum terminator c) := by
  have header_field : slice (frameBytes serial cmd p checksum terminator) 0 2 = enc16 0xAA55#16 := rfl
  have serial_field : slice (frameBytes serial cmd p checksum terminator) 2 6 = enc32 serial := rfl
  have length_field : slice (frameBytes serial cmd p checksum terminator) 6 8 = enc16 (BitVec.ofNat 16 p.length) := rfl
  have command_field : slice (frameBytes serial cmd p checksum terminator) 8 10 = enc16 cmd := rfl
  have payload_part (i j : Nat) (h : j ≤ p.length) :
      slice (frameBytes serial cmd p checksum terminator) (10 + i) (10 + j) = slice p i j := by
    rw [← slice_slice (Nat.add_le_add_left h 10), frameBytes_payload]
  unfold decodeFrame frameInstr
  simp only [header_field, serial_field, length_field, command_field, be16_enc16, be32_enc32, lengthField_toNat hp,
    frameBytes_length, frameBytes_payload, frameBytes_checksum, frameBytes_terminator]
  rw [if_neg (by omega), if_neg (not_not.2 rfl), if_neg (not_not.2 rfl)]
  split_ifs with response
  · obtain ⟨five, -⟩ := response
    rw [payload_part 0 4 (by omega), payload_part 4 5 (by omega)]
  · rfl

end

/-- R121 steps 1 to 3: a string with the header of a frame and the length it announces is a frame of some fields. -/
theorem exists_eq_frameBytes {b : Bytes} (header : be16 (slice b 0 2) = 0xAA55#16)
    (length_ok : b.length = 14 + (be16 (slice b 6 8)).toNat) :
    ∃ serial cmd p checksum terminator, p.length ≤ 65535 ∧ b = frameBytes serial cmd p checksum terminator := by
  generalize length_eq : be16 (slice b 6 8) = length at length_ok
  have long : 14 ≤ b.length := length_ok ▸ Nat.le_add_right 14 _
  have payload_length : length.toNat = (slice b 10 (10 + length.toNat)).length := by
    rw [slice_length_of_le (by omega), Nat.add_sub_cancel_left]
  refine ⟨be32 (slice b 2 6), be16 (slice b 8 10), slice b 10 (10 + length.toNat),
    be16 (slice b (10 + length.toNat) (12 + length.toNat)), be16 (slice b (12 + length.toNat) (14 + length.toNat)),
    payload_length ▸ Nat.le_of_lt_succ length.isLt, ?_⟩
  have header_bytes : enc16 0xAA55#16 = slice b 0 2 := header ▸ enc16_be16_slice (i := 0) (by omega)
  have length_bytes : enc16 length = slice b 6 8 := length_eq ▸ enc16_be16_slice (i := 6) (by omega)
  have checksum_bytes : enc16 (be16 (slice b (10 + length.toNat) (12 + length.toNat))) =
      slice b (10 + length.toNat) (12 + length.toNat) := enc16_be16 (by rw [slice_length_of_le] <;> omega)
  have terminator_bytes : enc16 (be16 (slice b (12 + length.toNat) (14 + length.toNat))) =
      slice b (12 + length.toNat) (14 + length.toNat) := enc16_be16 (by rw [slice_length_of_le] <;> omega)
  rw [frameBytes, ofNat_eq_of_toNat_eq payload_length, header_bytes, length_bytes, enc32_be32_slice (i := 2) (by omega),
    enc16_be16_slice (i := 8) (by omega), checksum_bytes, terminator_bytes]
  repeat rw [slice_append_slice _ (by omega) (by omega)]
  exact (slice_zero_of_length_le (by omega)).symm

theorem eq_frameBytes_of_decodeFrame {c : Cfg} {b : Bytes} {i : Instr} (h : decodeFrame c b = .ok i) :
    ∃ serial cmd p checksum terminator, p.length ≤ 65535 ∧ b = frameBytes serial cmd p checksum terminator ∧
      i = frameInstr serial cmd p checksum terminator c := by
  have form : be16 (slice b 0 2) = 0xAA55#16 ∧ b.length = 14 + (be16 (slice b 6 8)).toNat := by
    unfold decodeFrame at h
    simp only at h
    split_ifs at h with short header length_ok
    · exact ⟨not_not.1 header, not_not.1 length_ok⟩
    · exact ⟨not_not.1 header, not_not.1 length_ok⟩
  obtain ⟨header, length_ok⟩ := form
  obtain ⟨serial, cmd, p, checksum, terminator, hp, rfl⟩ := exists_eq_frameBytes header length_ok
  refine ⟨serial, cmd, p, checksum, terminator, hp, rfl, ?_⟩
  rw [decodeFrame_frameBytes _ _ _ _ _ hp] at h
  exact (Except.ok.inj h).symm

/-- A 5-byte payload is that of a response (R74). -/
theorem responsePayload_fields {p : Bytes} (h : p.length = 5) :
    responsePayload (be32 (slice p 0 4)) (be8 (slice p 4 5)) = p := by
  rw [responsePayload, enc32_be32_slice (i := 0) (by omega), enc8_be8_slice (i := 4) (by omega), slice_append_slice _ (by omega) (by omega), slice_zero_of_length_le h.le]

theorem encode_frameInstr {c : Cfg} (serial : U32) (cmd : U16) {p : Bytes} (checksum terminator : U16)
    (hp : p.length ≤ 65535) :
    (frameInstr serial cmd p checksum terminator c).wellFormed c = true ∧
      encode c (frameInstr serial cmd p checksum terminator c) = .frame (frameBytes serial cmd p checksum terminator) := by
  unfold frameInstr
  split_ifs with response
  · obtain ⟨five, bearing⟩ := response
    exact ⟨bearing, by rw [encode, responsePayload_fields five]⟩
  · refine ⟨?_, rfl⟩
    simp only [Instr.wellFormed, fitsUnit, Bool.and_eq_true, Bool.not_eq_true', Bool.and_eq_false_iff, decide_eq_true_iff,
      beq_eq_false_iff_ne]
    exact ⟨by omega, by simpa [or_iff_not_imp_left] using response⟩

/-! ### Sub-packets (R75, R76) -/

/-- The status byte read from a sub-packet of this status is understood as it. -/
theorem statusByte_of_statusOf {c : Cfg} {x : Byte} {st : SpStatus} (h : c.statusOf x = some st) :
    c.statusByte st = x := by
  unfold Cfg.statusOf at h
  split_ifs at h with whole start middle last <;> cases h <;> exact (by assumption : x = _).symm

theorem eq_subpkt_of_parseSubpkt {c : Cfg} {b : Bytes} {sp : SubPacket} (h : parseSubpkt c b = .ok sp) :
    sp.data.length ≤ 65535 ∧ b = subpkt c sp.status sp.packetId sp.data := by
  unfold parseSubpkt at h
  split_ifs at h with short header
  split at h
  case h_1 => cases h
  case h_2 st status =>
    simp only at h
    split_ifs at h with length_ok
    rw [not_not] at header length_ok
    cases h
    generalize length_eq : be16 (slice b 7 9) = length at length_ok
    have long : 9 ≤ b.length := length_ok ▸ Nat.le_add_right 9 _
    have data_length : length.toNat = (slice b 9 (9 + length.toNat)).length := by
      rw [slice_length_of_le length_ok.ge, Nat.add_sub_cancel_left]
    refine ⟨data_length ▸ Nat.le_of_lt_succ length.isLt, ?_⟩
    simp only
    have header_bytes : enc16 0xFAF5#16 = slice b 0 2 := header ▸ enc16_be16_slice (i := 0) (by omega)
    have length_bytes : enc16 length = slice b 7 9 := length_eq ▸ enc16_be16_slice (i := 7) (by omega)
    rw [subpkt, ofNat_eq_of_toNat_eq data_length, header_bytes, length_bytes, statusByte_of_statusOf status,
      enc8_be8_slice (i := 2) (by omega), enc32_be32_slice (i := 3) (by omega)]
    repeat rw [slice_append_slice _ (by omega) (by omega)]
    exact (slice_zero_of_length_le length_ok.le).symm

/-- The encoding of a sub-packet's instruction is its bytes. -/
theorem encode_subPacket_instr (c : Cfg) (sp : SubPacket) :
    encode c sp.instr = .subpacket (subpkt c sp.status sp.packetId sp.data) ∧
      sp.instr.wellFormed c = fitsUnit sp.data := by
  obtain ⟨st, id, d⟩ := sp
  cases st <;> exact ⟨rfl, rfl⟩

/-! ### The round trip -/

theorem decode_message {c : Cfg} {m : Bytes} {i : Instr} : decode c (.message m) = .ok i ↔ decodeMessage m = some i := by
  rw [decode]
  cases decodeMessage m <;> simp

theorem decode_subpacket {c : Cfg} {b : Bytes} {i : Instr} :
    decode c (.subpacket b) = .ok i ↔ ∃ sp, parseSubpkt c b = .ok sp ∧ sp.instr = i := by
  rw [decode]
  cases parseSubpkt c b <;> simp

theorem decode_frame {c : Cfg} {b : Bytes} {i : Instr} : decode c (.frame b) = .ok i ↔ decodeFrame c b = .ok i := by
  rw [decode]
  cases decodeFrame c b <;> simp

theorem fitsUnit_iff {d : Bytes} : fitsUnit d = true ↔ d.length ≤ 65535 := by
  rw [fitsUnit, decide_eq_true_iff]
  omega

theorem decode_subPacket_instr {c : Cfg} (wf : c.wf) (sp : SubPacket) (fits : fitsUnit sp.data = true) :
    decode c (.subpacket (subpkt c sp.status sp.packetId sp.data)) = .ok sp.instr :=
  decode_subpacket.2 ⟨sp, parseSubpkt_subpkt wf _ _ (fitsUnit_iff.1 fits), rfl⟩

theorem frameInstr_of_response {c : Cfg} {cmd : U16} (bearing : c.isReplyBearing cmd = true) (serial responded : U32)
    (status : Byte) (checksum terminator : U16) :
    frameInstr serial cmd (responsePayload responded status) checksum terminator c =
      .frameResponse serial cmd responded status checksum terminator := by
  have serial_field : slice (responsePayload responded status) 0 4 = enc32 responded := rfl
  have status_field : slice (responsePayload responded status) 4 5 = enc8 status := rfl
  rw [frameInstr, if_pos ⟨rfl, bearing⟩, serial_field, status_field, be32_enc32, be8_enc8]

/-- Settles O1: one case per constructor; the three decoders read back what the three layouts write. -/
theorem decodeOfEncodeIsInstruction : Obligations.DecodeOfEncodeIsInstruction := by
  unfold Obligations.DecodeOfEncodeIsInstruction
  intro c i wf fits
  cases i with
  | spNone id d => exact decode_subPacket_instr wf ⟨.whole, id, d⟩ fits
  | spStart id d => exact decode_subPacket_instr wf ⟨.start, id, d⟩ fits
  | spMiddle id d => exact decode_subPacket_instr wf ⟨.middle, id, d⟩ fits
  | spEnd id d => exact decode_subPacket_instr wf ⟨.last, id, d⟩ fits
  | frameCmd serial cmd p checksum terminator =>
    simp only [Instr.wellFormed, Bool.and_eq_true, Bool.not_eq_true', fitsUnit_iff] at fits
    obtain ⟨short, no_response⟩ := fits
    have named : frameInstr serial cmd p checksum terminator c = .frameCmd serial cmd p checksum terminator :=
      if_neg fun ⟨five, bearing⟩ => by simp [five, bearing] at no_response
    exact decode_frame.2 (named ▸ decodeFrame_frameBytes _ _ _ _ c short)
  | frameResponse serial cmd responded status checksum terminator =>
    refine decode_frame.2 ?_
    rw [← frameInstr_of_response fits]
    exact decodeFrame_frameBytes _ _ _ _ c (by simp)
  | _ => exact decode_message.2 (decodeMessage_of_encode fits rfl)

/-- Settles O2: one case per decoder; each takes only what its layout writes. -/
theorem decodedArrivalIsItsEncoding : Obligations.DecodedArrivalIsItsEncoding := by
  unfold Obligations.DecodedArrivalIsItsEncoding
  intro c a i h
  cases a with
  | message m => exact encode_of_decodeMessage c (decode_message.1 h)
  | subpacket b =>
    obtain ⟨sp, parsed, rfl⟩ := decode_subpacket.1 h
    obtain ⟨short, rfl⟩ := eq_subpkt_of_parseSubpkt parsed
    obtain ⟨encoded, wf⟩ := encode_subPacket_instr c sp
    exact ⟨wf.trans (fitsUnit_iff.2 short), encoded⟩
  | frame b =>
    obtain ⟨serial, cmd, p, checksum, terminator, short, rfl, rfl⟩ := eq_frameBytes_of_decodeFrame (decode_frame.1 h)
    exact encode_frameInstr serial cmd checksum terminator short

end Sys2Proof.Machine
end

section
/-! PROOFS. The step (00_scope.md R9): what it does with the message it takes, and what every step keeps. -/

namespace Sys2Proof.Machine

/-- Settles O3: each word is the encoding of its instruction. -/
theorem specWordsDecode : Obligations.SpecWordsDecode := by
  unfold Obligations.SpecWordsDecode
  intro c wf start
  have start_word : encode c (.spStart 5#32 [0xAA#8, 0x55#8]) =
      .subpacket [0xFA#8, 0xF5#8, 0x01#8, 0x00#8, 0x00#8, 0x00#8, 0x05#8, 0x00#8, 0x02#8, 0xAA#8, 0x55#8] := by
    rw [encode, subpkt, Cfg.statusByte, start]
    rfl
  refine ⟨decodeOfEncodeIsInstruction c (.cancel 7#32) wf rfl,
    decodeOfEncodeIsInstruction c (.send 0x0101#16 true 2#32 []) wf rfl,
    decodeOfEncodeIsInstruction c (.frameCmd 0#32 0x0101#16 [] 0xA125#16 0x0D0A#16) wf rfl, ?_⟩
  rw [← start_word]
  exact decodeOfEncodeIsInstruction c _ wf rfl

/-! ### Taking a message -/

section
variable {s : State} {m : Bytes} {rest : List Bytes} (presented : s.inbox = m :: rest)
include presented

theorem step_of_decodes {i : Instr} (h : decodeMessage m = some i) : step s = exec i { s with inbox := rest } := by
  simp only [step, fetch, presented, h]

theorem step_of_illegal (h : decodeMessage m = none) : step s = reject m { s with inbox := rest } := by
  simp only [step, fetch, presented, h]

end

/-- Settles O4: the message decoder is the decoder of messages. -/
theorem stepRunsDecodedInstruction : Obligations.StepRunsDecodedInstruction := by
  unfold Obligations.StepRunsDecodedInstruction
  exact fun s m rest i presented decoded => step_of_decodes presented (decode_message.1 decoded)

theorem step_of_idle {s : State} (h : s.inbox = []) : step s = .next s := by
  simp only [step, fetch, h]

/-- Settles O5: an empty inbox gives the step nothing to fetch. -/
theorem idleStepKeepsState : Obligations.IdleStepKeepsState := by
  unfold Obligations.IdleStepKeepsState
  exact fun s => step_of_idle

/-- Settles O6: a message that decoded would be the encoding of what it decodes to. -/
theorem illegalMessageIsRefused : Obligations.IllegalMessageIsRefused := by
  unfold Obligations.IllegalMessageIsRefused
  intro s op body rest presented no_encoding
  have illegal : decodeMessage (op :: body) = none := by
    refine Option.eq_none_iff_forall_not_mem.2 fun i decoded => ?_
    obtain ⟨wf, encoded⟩ := encode_of_decodeMessage s.cfg decoded
    exact no_encoding i wf encoded
  rw [step_of_illegal presented illegal]
  rfl

/-- Settles O7: the byte is the free value drawn. -/
theorem emptyMessageIsRefused : Obligations.EmptyMessageIsRefused := by
  unfold Obligations.EmptyMessageIsRefused
  intro s rest presented
  refine ⟨Config.emptyMessageOpcode s.freeCount, ?_⟩
  rw [step_of_illegal presented rfl]
  rfl

/-! ### Wire units -/

/-- R151: a `none` sub-packet is accepted in every configuration: where status bytes coincide, `none` is taken first. -/
theorem parseSubpkt_subpkt_whole (c : Cfg) (id : U32) {d : Bytes} (hd : d.length ≤ 65535) :
    parseSubpkt c (subpkt c .whole id d) = .ok { status := .whole, packetId := id, data := d } := by
  have header_field : be16 (slice (subpkt c .whole id d) 0 2) = 0xFAF5#16 := be16_enc16 _
  have status_field : be8 (slice (subpkt c .whole id d) 2 3) = c.stNone := be8_enc8 _
  have id_field : be32 (slice (subpkt c .whole id d) 3 7) = id := be32_enc32 id
  have length_field : (be16 (slice (subpkt c .whole id d) 7 9)).toNat = d.length :=
    (congrArg BitVec.toNat (be16_enc16 _)).trans (lengthField_toNat hd)
  have data_field : slice (subpkt c .whole id d) 9 (subpkt c .whole id d).length = d :=
    List.take_of_length_le (by rw [subpkt_length]; exact Nat.le_of_eq (Nat.add_sub_cancel_left ..).symm)
  rw [parseSubpkt_of_valid (st := .whole) header_field (by rw [status_field, Cfg.statusOf, if_pos rfl])
    (by rw [length_field, subpkt_length]), id_field, data_field]

/-- A frame at the frame parser is delivered, whatever its name (logs 7 and 8). -/
theorem exec_of_decodeFrame {s : State} {f : Bytes} {i : Instr} (h : decodeFrame s.cfg f = .ok i) :
    exec i s = s.after (deliver s.cfg f s.regs) := by
  obtain ⟨serial, cmd, p, checksum, terminator, -, rfl, rfl⟩ := eq_frameBytes_of_decodeFrame h
  rw [exec_eq_after]
  unfold frameInstr
  split_ifs with response
  · rw [effectOf, responsePayload_fields response.1]
  · rfl

/-- Settles O8: the message decodes to the `RX`, whose unit is the sub-packet, whose data is the frame. -/
theorem unitArrivalIsReception : Obligations.UnitArrivalIsReception := by
  unfold Obligations.UnitArrivalIsReception
  intro s b rest i short presented
  have fits : fitsMessage b = true := decide_eq_true short
  have runs_rx : step s = exec (.rx b) { s with inbox := rest } :=
    step_of_decodes presented (decodeMessage_rxMessage fits)
  rw [runs_rx]
  constructor
  · intro decoded
    obtain ⟨sp, parsed, rfl⟩ := decode_subpacket.1 decoded
    exact exec_rx_of_accepted parsed
  · rintro id f frame_fits rfl decoded
    have parsed := parseSubpkt_subpkt_whole s.cfg id frame_fits
    rw [exec_rx_of_accepted (s := { s with inbox := rest }) parsed]
    exact (exec_spNone _ id f).trans (exec_of_decodeFrame (s := { s with inbox := rest }) (decode_frame.1 decoded)).symm

/-! ### What every step keeps -/

/-- What one step can do to each part of the state: the registers are those of an instruction's effect or the old ones. -/
theorem exists_step_next (s : State) : ∃ t, step s = .next t ∧ t.cfg = s.cfg ∧ (∃ new, t.out = s.out ++ new) ∧
    (t.regs = s.regs ∨ ∃ i, t.regs = (effectOf s.cfg i s.regs).regs) := by
  rcases step_cases s with ⟨-, idle⟩ | ⟨m, rest, i, -, -, runs⟩ | ⟨m, rest, -, -, refused⟩
  · exact ⟨s, idle, rfl, ⟨[], (List.append_nil _).symm⟩, .inl rfl⟩
  · rw [exec_eq_after] at runs
    exact ⟨_, runs, rfl, ⟨_, rfl⟩, .inr ⟨i, rfl⟩⟩
  · obtain ⟨op, n, rejected⟩ := reject_cases m { s with inbox := rest }
    exact ⟨_, refused.trans rejected, rfl, ⟨_, rfl⟩, .inl rfl⟩

/-- Settles O9. -/
theorem everyStepGoesOn : Obligations.EveryStepGoesOn := by
  unfold Obligations.EveryStepGoesOn
  intro s
  obtain ⟨t, next, -⟩ := exists_step_next s
  exact ⟨t, next⟩

theorem step_next_cases {s t : State} (h : step s = .next t) : t.cfg = s.cfg ∧ (∃ new, t.out = s.out ++ new) ∧
    (t.regs = s.regs ∨ ∃ i, t.regs = (effectOf s.cfg i s.regs).regs) := by
  obtain ⟨t', next, kept⟩ := exists_step_next s
  rw [h] at next
  cases next
  exact kept

/-- Settles O12. -/
theorem stepKeepsConfigurationAndOutputs : Obligations.StepKeepsConfigurationAndOutputs := by
  unfold Obligations.StepKeepsConfigurationAndOutputs
  intro s t h
  obtain ⟨cfg_kept, appended, -⟩ := step_next_cases h
  exact ⟨cfg_kept, appended⟩

end Sys2Proof.Machine
end

section
/-! PROOFS. What a received unit can do to the registers, and the engine's invariant (10_state.md R26 to R29,
43_dispatch_correlation.md R175 and R196). -/

namespace Sys2Proof.Machine

/-! ### Received units -/

/-- The registers after a chunk opens a reassembly (R152). -/
def opened (id : U32) (d : Bytes) (r : Registers) : Registers :=
  { r with rsmBase := id, rsmBuf := [d], rsmCount := 1#32, rsmState := .assembling }

/-- What a unit can do to the reassembler's registers: nothing, clear them, open a reassembly with a chunk that fits, append a
chunk that fits. -/
inductive ReassemblerStep (c : Cfg) (r : Registers) : Registers → Prop where
  | stay : ReassemblerStep c r r
  | clear : ReassemblerStep c r (clearReassembly r)
  | start (id : U32) (d : Bytes) (fits : d.length ≤ c.rsmBufMax) : ReassemblerStep c r (opened id d r)
  | append (d : Bytes) (assembling : r.rsmState = .assembling) (fits : r.rsmLen + d.length ≤ c.rsmBufMax) :
    ReassemblerStep c r (appendChunk d r)

/-- What a unit's effect is: a step of the reassembler, and then either bytes delivered from there or notices alone. -/
def IsReception (c : Cfg) (r : Registers) (e : Effect) : Prop :=
  ∃ r', ReassemblerStep c r r' ∧ ((∃ b, e = deliver c b r') ∨ ∃ notices : List Error, e = ⟨r', notices.map .err⟩)

section
variable (c : Cfg) (r : Registers)

theorem deliver_isReception (b : Bytes) : IsReception c r (deliver c b r) := ⟨r, .stay, .inl ⟨b, rfl⟩⟩

theorem abort_isReception (why : AbortReason) : IsReception c r (abort why r) :=
  ⟨_, .clear, .inr ⟨[.reassemblyAborted why], rfl⟩⟩

theorem malformedUnit_isReception (k : SubpktCheck) : IsReception c r (malformedUnit k r) :=
  ⟨_, .clear, .inr ⟨[.malformedSubPacket k], rfl⟩⟩

theorem noReassembly_isReception : IsReception c r (raise (.reassemblyAborted .noReassembly) r) :=
  ⟨_, .stay, .inr ⟨[.reassemblyAborted .noReassembly], rfl⟩⟩

theorem rxStart_isReception (id : U32) (d : Bytes) : IsReception c r (rxStart c id d r) := by
  rcases r.rsmState_cases with idle | assembling <;> rcases le_or_gt d.length c.rsmBufMax with fits | overflow
  · rw [rxStart_of_idle idle, openReassembly_of_fits fits]
    exact ⟨_, .start id d fits, .inr ⟨[], rfl⟩⟩
  · rw [rxStart_of_idle idle, openReassembly_of_overflow overflow]
    exact abort_isReception c r .overflow
  · rw [rxStart_of_assembling assembling, Effect.andThen, openReassembly_of_fits fits]
    exact ⟨_, .start id d fits, .inr ⟨[.reassemblyAborted .startWhileAssembling], rfl⟩⟩
  · rw [rxStart_of_assembling assembling, Effect.andThen, openReassembly_of_overflow overflow]
    exact ⟨_, .clear, .inr ⟨[.reassemblyAborted .startWhileAssembling, .reassemblyAborted .overflow], rfl⟩⟩

theorem rxMiddle_isReception (id : U32) (d : Bytes) : IsReception c r (rxMiddle c id d r) := by
  rcases r.rsmState_cases with idle | assembling
  · rw [rxMiddle_of_idle idle]
    exact noReassembly_isReception c r
  by_cases expected : id = expectedId r
  · rcases le_or_gt (r.rsmLen + d.length) c.rsmBufMax with fits | overflow
    · rw [rxMiddle_of_fits assembling expected fits]
      exact ⟨_, .append d assembling fits, .inr ⟨[], rfl⟩⟩
    · rw [rxMiddle_of_overflow assembling expected overflow]
      exact abort_isReception c r _
  · rw [rxMiddle_of_unexpected assembling expected]
    exact abort_isReception c r _

theorem rxLast_isReception (id : U32) (d : Bytes) : IsReception c r (rxLast c id d r) := by
  unfold rxLast
  split
  · exact noReassembly_isReception c r
  · split_ifs
    · exact abort_isReception c r _
    · exact abort_isReception c r _
    · exact ⟨_, .clear, .inl ⟨_, rfl⟩⟩

theorem reassemble_isReception (sp : SubPacket) : IsReception c r (reassemble c sp r) := by
  obtain ⟨st, id, d⟩ := sp
  cases st with
  | whole => exact deliver_isReception c r d
  | start => exact rxStart_isReception c r id d
  | middle => exact rxMiddle_isReception c r id d
  | last => exact rxLast_isReception c r id d

theorem receive_isReception (b : Bytes) : IsReception c r (receive c b r) := by
  unfold receive
  split
  · exact reassemble_isReception c r _
  · exact malformedUnit_isReception c r _

/-- Every unit, in an `RX` or at its parser, is a reception. -/
theorem effectOf_isReception {i : Instr} (h : unitEvent i = true) : IsReception c r (effectOf c i r) := by
  cases i with
  | rx b => exact receive_isReception c r b
  | frameCmd | frameResponse | spNone => exact deliver_isReception c r _
  | spStart id d => exact rxStart_isReception c r id d
  | spMiddle id d => exact rxMiddle_isReception c r id d
  | spEnd id d => exact rxLast_isReception c r id d
  | _ => cases h

end

/-- Delivered bytes write the pending table at most: the registration of one serial is released. -/
theorem deliver_regs_cases (c : Cfg) (b : Bytes) (r : Registers) :
    (deliver c b r).regs = r ∨ ∃ x, (deliver c b r).regs = { r with pend := releaseFirst (Slot.holds x) r.pend } := by
  rcases deliver_cases c b r with ⟨e, -, dropped⟩ | ⟨f, -, forwarded⟩ | ⟨f, x, -, -, -, response⟩
  · exact .inl (by rw [dropped, raise_regs])
  · exact .inl (by rw [forwarded]; rfl)
  · rcases takeResponse_cases x r with ⟨-, resolved⟩ | ⟨-, stale⟩
    · exact .inr ⟨x.respondedSerial, by rw [response, resolved, resolve_regs]⟩
    · exact .inl (by rw [response, stale, raise_regs])

/-! ### The reassembler's part of the invariant -/

/-- R27 and R28. -/
def Registers.BufferOk (c : Cfg) (r : Registers) : Prop := r.reassemblerOk ∧ r.rsmLen ≤ c.rsmBufMax

theorem inv_iff {c : Cfg} {r : Registers} : r.Inv c ↔ r.BufferOk c ∧ r.pendOk c := and_assoc.symm

theorem bufferOk_clearReassembly (c : Cfg) (r : Registers) : (clearReassembly r).BufferOk c :=
  ⟨⟨fun _ => ⟨rfl, rfl, rfl⟩, fun h => by cases h⟩, Nat.zero_le _⟩

theorem ReassemblerStep.bufferOk {c : Cfg} {r r' : Registers} (h : ReassemblerStep c r r') (ok : r.BufferOk c) :
    r'.BufferOk c := by
  cases h with
  | stay => exact ok
  | clear => exact bufferOk_clearReassembly c r
  | start id d fits =>
    have idle_never : (opened id d r).rsmState ≠ .idle := RsmState.noConfusion
    exact ⟨⟨fun idle => absurd idle idle_never, fun _ => ⟨List.cons_ne_nil _ _, rfl⟩⟩,
      by simpa [Registers.rsmLen, opened] using fits⟩
  | append d assembling fits =>
    obtain ⟨⟨-, counted⟩, -⟩ := ok
    obtain ⟨-, count⟩ := counted assembling
    refine ⟨⟨fun idle => ?_, fun _ => ⟨by simp, ?_⟩⟩, by simpa [Registers.rsmLen] using fits⟩
    · rw [appendChunk_rsmState, assembling] at idle
      cases idle
    · rw [appendChunk_rsmCount, appendChunk_rsmBuf, count, List.length_append, List.length_singleton, BitVec.ofNat_add]

/-- The reassembler's registers alone change. -/
def SameDispatcher (r r' : Registers) : Prop :=
  r'.serialNext = r.serialNext ∧ r'.pktidNext = r.pktidNext ∧ r'.mtu = r.mtu ∧ r'.link = r.link ∧ r'.time = r.time ∧
    r'.pend = r.pend

theorem ReassemblerStep.sameDispatcher {c : Cfg} {r r' : Registers} (h : ReassemblerStep c r r') :
    SameDispatcher r r' := by
  cases h <;> exact ⟨rfl, rfl, rfl, rfl, rfl, rfl⟩

/-! ### The pending table's part -/

section
variable {c : Cfg} {r r' : Registers}

/-- Taking registrations away keeps the table in order; a link that goes down must take them all. -/
theorem pendOk_of_sublist (ok : r.pendOk c) (length_eq : r'.pend.length = r.pend.length)
    (fewer : (pendingSerials r'.pend).Sublist (pendingSerials r.pend))
    (link : r'.link = false → r.link = false ∨ pendingSerials r'.pend = []) : r'.pendOk c := by
  obtain ⟨size, unique, unlinked⟩ := ok
  refine ⟨length_eq.trans size, unique.sublist fewer, fun down => pendingSerials_eq_nil.1 ?_⟩
  rcases link down with was_down | none_left
  · have none_before : pendingSerials r.pend = [] := pendingSerials_eq_nil.2 (unlinked was_down)
    rw [none_before] at fewer
    exact List.sublist_nil.1 fewer
  · exact none_left

theorem pendOk_congr (ok : r.pendOk c) (pend_eq : r'.pend = r.pend) (link_eq : r'.link = r.link) : r'.pendOk c := by
  unfold Registers.pendOk
  rwa [pend_eq, link_eq]

theorem pendOk_releaseFirst (q : Slot → Bool) (ok : r.pendOk c) :
    Registers.pendOk c { r with pend := releaseFirst q r.pend } :=
  pendOk_of_sublist ok (releaseFirst_length ..) (pendingSerials_releaseFirst ..) .inl

theorem pendOk_releaseAll (q : Slot → Bool) (ok : r.pendOk c) :
    Registers.pendOk c { r with pend := releaseAll q r.pend } :=
  pendOk_of_sublist ok (releaseAll_length ..) (pendingSerials_releaseAll ..) .inl

end

theorem pendOk_deliver {c : Cfg} {r : Registers} (b : Bytes) (ok : r.pendOk c) : (deliver c b r).regs.pendOk c := by
  rcases deliver_regs_cases c b r with kept | ⟨x, released⟩
  · rwa [kept]
  · rw [released]
    exact pendOk_releaseFirst _ ok

theorem bufferOk_deliver {c : Cfg} {r : Registers} (b : Bytes) (ok : r.BufferOk c) : (deliver c b r).regs.BufferOk c := by
  obtain ⟨table, regs_eq⟩ := deliver_regs c b r
  rw [regs_eq]
  exact ok

/-! ### Each effect keeps the invariant -/

theorem IsReception.inv {c : Cfg} {r : Registers} {e : Effect} (h : IsReception c r e) (inv : r.Inv c) : e.regs.Inv c := by
  obtain ⟨buffer, pend⟩ := inv_iff.1 inv
  obtain ⟨r', reassembles, rest⟩ := h
  obtain ⟨-, -, -, link_kept, -, pend_kept⟩ := reassembles.sameDispatcher
  have buffer' := reassembles.bufferOk buffer
  have pend' := pendOk_congr pend pend_kept link_kept
  rcases rest with ⟨b, rfl⟩ | ⟨notices, rfl⟩
  · exact inv_iff.2 ⟨bufferOk_deliver b buffer', pendOk_deliver b pend'⟩
  · exact inv_iff.2 ⟨buffer', pend'⟩

theorem resetRegisters_inv (c : Cfg) : (resetRegisters c).Inv c := by
  have none_pending : pendingSerials (resetRegisters c).pend = [] :=
    pendingSerials_eq_nil.2 fun _ => resetRegisters_pend_invalid
  refine inv_iff.2 ⟨⟨⟨fun _ => ⟨rfl, rfl, rfl⟩, fun h => by cases h⟩, Nat.zero_le _⟩, List.length_replicate, ?_,
    fun _ _ => resetRegisters_pend_invalid⟩
  rw [none_pending]
  exact List.nodup_nil

/-- R172 step 5: the new serial is not pending, so the table stays without repetitions. -/
theorem pendOk_register {s : State} {cmd : U16} {p : Bytes} (accepted : s.canSend cmd true p) (timeout : U32)
    (ok : s.regs.pendOk s.cfg) :
    Registers.pendOk s.cfg { s.regs with pend := register (sendSlot timeout s.regs) s.regs.pend } := by
  obtain ⟨linked, -, -, -, registers⟩ := accepted
  obtain ⟨free_slot, not_pending⟩ := registers rfl
  obtain ⟨size, unique, -⟩ := ok
  refine ⟨(register_length ..).trans size, ?_, fun down => ?_⟩
  · rw [(pendingSerials_register (sendSlot_valid ..) free_slot).nodup_iff, List.nodup_cons, mem_pendingSerials,
      sendSlot_serial]
    exact ⟨fun ⟨q, hq, occupied, serial⟩ => not_pending q hq occupied serial, unique⟩
  · rw [linked] at down
    cases down

/-- `SEND` is refused with its first failing check, or issued. -/
theorem send_cases (s : State) (cmd : U16) (expectsReply : Bool) (timeout : U32) (p : Bytes) :
    (¬ s.canSend cmd expectsReply p ∧ ∃ e, sendCheck s.cfg cmd expectsReply p s.regs = some e ∧
      send s.cfg cmd expectsReply timeout p s.regs = refuse e s.regs) ∨
    (s.canSend cmd expectsReply p ∧
      send s.cfg cmd expectsReply timeout p s.regs = issue s.cfg cmd expectsReply timeout p s.regs) := by
  rw [← sendCheck_eq_none, send]
  cases sendCheck s.cfg cmd expectsReply p s.regs with
  | none => exact .inr ⟨rfl, rfl⟩
  | some e => exact .inl ⟨by simp, e, rfl, rfl⟩

theorem inv_send {s : State} (inv : s.Inv) (cmd : U16) (expectsReply : Bool) (timeout : U32) (p : Bytes) :
    (send s.cfg cmd expectsReply timeout p s.regs).regs.Inv s.cfg := by
  rcases send_cases s cmd expectsReply timeout p with ⟨-, e, -, refused⟩ | ⟨accepted, issued⟩
  · rwa [refused]
  · rw [issued]
    obtain ⟨reassembler, fits, pend⟩ := inv
    refine ⟨reassembler, fits, ?_⟩
    cases expectsReply with
    | true => exact pendOk_register accepted timeout pend
    | false => exact pend

theorem inv_disconnect {c : Cfg} {r : Registers} (inv : r.Inv c) : (disconnect r).regs.Inv c := by
  obtain ⟨buffer, pend⟩ := inv_iff.1 inv
  rw [disconnect_eq buffer.1]
  have none_left : pendingSerials (disconnected r).pend = [] :=
    pendingSerials_eq_nil.2 fun q hq => by
      obtain ⟨q, -, rfl⟩ := List.mem_map.1 hq
      rfl
  refine inv_iff.2 ⟨bufferOk_clearReassembly c _, pendOk_of_sublist pend (List.length_map _) ?_ fun _ => .inr none_left⟩
  rw [none_left]
  exact List.nil_sublist _

theorem inv_effectOf {s : State} (inv : s.Inv) (i : Instr) : (effectOf s.cfg i s.regs).regs.Inv s.cfg := by
  by_cases unit : unitEvent i = true
  · exact (effectOf_isReception s.cfg s.regs unit).inv inv
  obtain ⟨reassembler, fits, pend⟩ := inv
  cases i with
  | reset => exact resetRegisters_inv s.cfg
  | crcCalc | frameBuild | frameParse | frag => exact ⟨reassembler, fits, pend⟩
  | send cmd expectsReply timeout p => exact inv_send ⟨reassembler, fits, pend⟩ cmd expectsReply timeout p
  | cancel serial => exact ⟨reassembler, fits, pendOk_releaseFirst _ pend⟩
  | cancelAll => exact ⟨reassembler, fits, pendOk_releaseAll _ pend⟩
  | setMtu v => exact ⟨reassembler, fits, pend⟩
  | linkUp => exact ⟨reassembler, fits, pendOk_of_sublist pend rfl (List.Sublist.refl _) fun down => by cases down⟩
  | linkDown => exact inv_disconnect ⟨reassembler, fits, pend⟩
  | tick => exact ⟨reassembler, fits, pendOk_releaseAll _ pend⟩
  | rx | frameCmd | frameResponse | spNone | spStart | spMiddle | spEnd => exact absurd rfl unit

/-- Settles O10: every instruction's effect keeps the invariant, and a step leaves the registers of one or the old ones. -/
theorem stepKeepsInvariant : Obligations.StepKeepsInvariant := by
  unfold Obligations.StepKeepsInvariant
  intro s t inv h
  obtain ⟨cfg_kept, -, kept | ⟨i, ran⟩⟩ := step_next_cases h
  · rwa [State.Inv, cfg_kept, kept]
  · rw [State.Inv, cfg_kept, ran]
    exact inv_effectOf inv i

/-- Settles O11. -/
theorem resetStateSatisfiesInvariant : Obligations.ResetStateSatisfiesInvariant := by
  unfold Obligations.ResetStateSatisfiesInvariant
  exact resetRegisters_inv Config.cfg

/-- Settles O14: the registers of R39 depend on the configuration alone. -/
theorem powerUpEqualsReset : Obligations.PowerUpEqualsReset := by
  unfold Obligations.PowerUpEqualsReset
  intro s t same_cfg h
  rw [exec_reset] at h
  cases h
  rw [State.reset_regs, ← State.reset_cfg, ← same_cfg]

end Sys2Proof.Machine
end

section
/-! PROOFS. The algebra of the CRC register (40_crc16.md R105 to R107). -/

namespace Sys2Proof.Machine

/-! ### The bit-serial form -/

theorem crcShifts_eq_iterate (n : Nat) (c : U16) : crcShifts n c = crcShift^[n] c := by
  induction n generalizing c with
  | zero => rfl
  | succ n ih => exact ih (crcShift c)

theorem crcShift_of_even {c : U16} (h : c.getLsbD 0 = false) : crcShift c = c >>> 1 := by
  rw [crcShift, h, if_neg Bool.noConfusion]

/-- Shifts that bring out zeros only are plain shifts. -/
theorem crcShifts_of_low_zero (n : Nat) {c : U16} (h : ∀ i < n, c.getLsbD i = false) : crcShifts n c = c >>> n := by
  induction n generalizing c with
  | zero => exact (BitVec.ushiftRight_zero c).symm
  | succ n ih =>
    have rest_zero : ∀ i < n, (c >>> 1).getLsbD i = false := fun i hi => by
      rw [BitVec.getLsbD_ushiftRight]
      exact h _ (by omega)
    rw [crcShifts, crcShift_of_even (h 0 (by omega)), ih rest_zero, ← BitVec.shiftRight_add, Nat.add_comm]

/-- R105: the register's high byte only moves down in eight shifts, and its low byte turns into a table entry. -/
theorem crcSerialUpdate_eq_crcUpdate (crc : U16) (x : Byte) : crcSerialUpdate crc x = crcUpdate crc x := by
  have split_bytes : crc ^^^ x.zeroExtend 16 =
      ((crc >>> 8) <<< 8) ^^^ (crc.extractLsb' 0 8 ^^^ x).zeroExtend 16 := by
    refine BitVec.eq_of_getLsbD_eq fun i hi => ?_
    simp only [BitVec.getLsbD_xor, BitVec.zeroExtend, BitVec.getLsbD_setWidth, BitVec.getLsbD_shiftLeft,
      BitVec.getLsbD_ushiftRight, BitVec.getLsbD_extractLsb']
    rcases Nat.lt_or_ge i 8 with low | high
    · simp [hi, low]
    · simp [hi, Nat.not_lt.2 high, Nat.add_sub_cancel' high]
  have high_shifts : crcShifts 8 ((crc >>> 8) <<< 8) = crc >>> 8 := by
    rw [crcShifts_of_low_zero 8 fun i hi => by simp [hi]]
    refine BitVec.eq_of_getLsbD_eq fun i hi => ?_
    rcases Nat.lt_or_ge (8 + i) 16 with inside | outside
    · simp [inside]
    · simp [Nat.not_lt.2 outside, BitVec.getLsbD_of_ge crc (8 + i) outside]
  rw [crcSerialUpdate, split_bytes, crcShifts_xor, high_shifts, crcUpdate_eq_low_byte]
  rfl

/-- Settles O16: the given shift is the register's, and byte by byte the two forms agree. -/
theorem bitSerialFormAgrees : Obligations.BitSerialFormAgrees := by
  unfold Obligations.BitSerialFormAgrees
  intro shift shift_def
  obtain rfl : shift = crcShift := funext shift_def
  have serial_eq : crcSerialUpdate = crcUpdate := funext₂ crcSerialUpdate_eq_crcUpdate
  have serial_iterate (crc : U16) (x : Byte) : crcSerialUpdate crc x = crcShift^[8] (crc ^^^ x.zeroExtend 16) :=
    crcShifts_eq_iterate 8 _
  refine ⟨fun i => crcShifts_eq_iterate 8 _, fun crc x => ⟨serial_iterate crc x, crcSerialUpdate_eq_crcUpdate crc x⟩,
    fun b => ⟨by rw [crc16Serial, serial_eq, crc16], ?_⟩⟩
  rw [crc16, ← serial_eq, funext₂ serial_iterate]

/-! ### Linearity -/

theorem crcUpdate_xor (a b : U16) (x y : Byte) : crcUpdate (a ^^^ b) (x ^^^ y) = crcUpdate a x ^^^ crcUpdate b y := by
  simp only [← crcSerialUpdate_eq_crcUpdate, crcSerialUpdate]
  rw [← crcShifts_xor]
  congr 1
  rw [BitVec.zeroExtend, BitVec.setWidth_xor]
  ac_rfl

theorem foldl_crcUpdate_xor {a b : Bytes} (h : a.length = b.length) (u v : U16) :
    (List.zipWith (· ^^^ ·) a b).foldl crcUpdate (u ^^^ v) = a.foldl crcUpdate u ^^^ b.foldl crcUpdate v := by
  induction a generalizing b u v with
  | nil =>
    obtain rfl := List.length_eq_zero_iff.1 h.symm
    rfl
  | cons x a ih =>
    cases b with
    | nil => cases h
    | cons y b =>
      rw [List.zipWith_cons_cons, List.foldl_cons, List.foldl_cons, List.foldl_cons, crcUpdate_xor]
      exact ih (Nat.succ.inj h) _ _

/-- Settles O18: the register is linear in its seed and its input together, and both seeds are 0. -/
theorem crcIsLinear : Obligations.CrcIsLinear := by
  unfold Obligations.CrcIsLinear
  exact fun a b same_length => foldl_crcUpdate_xor same_length 0#16 0#16

/-- The register stays 0 while zero bytes come. -/
theorem crc16_replicate_zero (k : Nat) : crc16 (List.replicate k 0#8) = 0#16 := by
  have zero_stays : crcUpdate 0#16 0#8 = 0#16 := by decide
  induction k with
  | zero => rfl
  | succ k ih => rw [List.replicate_succ, crc16, List.foldl_cons, zero_stays, ← crc16, ih]

/-- Settles O17: what follows the zero bytes starts from the seed again. -/
theorem leadingZerosDoNotAffectCrc : Obligations.LeadingZerosDoNotAffectCrc := by
  unfold Obligations.LeadingZerosDoNotAffectCrc
  intro k b
  exact ⟨crc16_replicate_zero k, by rw [crc16_append, crc16_replicate_zero, crc16]⟩

/-! ### Detecting a changed bit -/

/-- A shift loses nothing: the highest bit of the result tells which bit was shifted out. -/
theorem crcShift_injective : Function.Injective crcShift := by
  have kernel_zero (c : U16) (h : crcShift c = 0#16) : c = 0#16 := by
    unfold crcShift at h
    split_ifs at h with odd
    · have highest_bit := congrArg (BitVec.getLsbD · 15) h
      simp at highest_bit
    · have half := congrArg BitVec.toNat h
      have even : c.toNat % 2 = 0 := by simpa [BitVec.getLsbD, Nat.testBit_zero] using odd
      rw [BitVec.toNat_ushiftRight, Nat.shiftRight_eq_div_pow] at half
      exact BitVec.eq_of_toNat_eq (by simp at half ⊢; omega)
  intro a b h
  refine BitVec.xor_eq_zero_iff.1 (kernel_zero _ ?_)
  rw [crcShift_xor, h, BitVec.xor_self]

theorem crcShifts_injective (n : Nat) : Function.Injective (crcShifts n) := by
  rw [funext (crcShifts_eq_iterate n)]
  exact crcShift_injective.iterate n

theorem crcUpdate_left_injective (x : Byte) : Function.Injective fun crc => crcUpdate crc x := by
  intro a b h
  simp only [← crcSerialUpdate_eq_crcUpdate] at h
  exact (BitVec.xor_left_inj _).1 (crcShifts_injective 8 h)

theorem crcUpdate_right_injective (crc : U16) : Function.Injective (crcUpdate crc) := by
  intro x y h
  simp only [← crcSerialUpdate_eq_crcUpdate] at h
  have widened : x.zeroExtend 16 = y.zeroExtend 16 := (BitVec.xor_right_inj _).1 (crcShifts_injective 8 h)
  exact by simpa using congrArg (BitVec.setWidth 8) widened

theorem foldl_crcUpdate_injective (b : Bytes) : Function.Injective fun crc => b.foldl crcUpdate crc := by
  induction b with
  | nil => exact fun _ _ h => h
  | cons x b ih => exact fun u v h => crcUpdate_left_injective x (ih h)

/-- One byte replaced by another always changes the checksum. -/
theorem crc16_set_ne {b : Bytes} {k : Nat} {x : Byte} (hk : k < b.length) (h : x ≠ b[k]) : crc16 (b.set k x) ≠ crc16 b := by
  intro same
  have around : b = b.take k ++ b[k] :: b.drop (k + 1) := by rw [← List.drop_eq_getElem_cons hk, List.take_append_drop]
  rw [List.set_eq_take_append_cons_drop, if_pos hk] at same
  conv_rhs at same => rw [around]
  rw [crc16_append, crc16_append] at same
  exact h (crcUpdate_right_injective _ (foldl_crcUpdate_injective _ same))

/-! ### Changed bits -/

theorem flipBit_length (b : Bytes) (k j : Nat) : (flipBit b k j).length = b.length := List.length_modify ..

theorem flipBit_eq_set {b : Bytes} {k : Nat} (hk : k < b.length) (j : Nat) :
    flipBit b k j = b.set k (b[k] ^^^ (1#8 <<< j)) := by
  rw [flipBit, List.modify_eq_set, List.getElem?_eq_getElem hk, Option.getD_some]

theorem xor_bit_ne (x : Byte) {j : Nat} (hj : j < 8) : x ^^^ (1#8 <<< j) ≠ x := by
  intro same
  have bit := congrArg (BitVec.getLsbD · j) same
  simp [hj] at bit

/-- Settles O19: the changed byte makes the register differ, and later bytes keep two registers apart. -/
theorem crcDetectsOneChangedBit : Obligations.CrcDetectsOneChangedBit := by
  unfold Obligations.CrcDetectsOneChangedBit
  intro b k j hk hj
  rw [flipBit_eq_set hk]
  exact crc16_set_ne hk (xor_bit_ne _ hj)

end Sys2Proof.Machine
end

section
/-! PROOFS. The integer codec (20_memory.md R52 to R55), and building, parsing and dropping frames (41_frame.md). -/

namespace Sys2Proof.Machine

/-! ### The integer codec -/

section
variable (a b c d e f g h : Byte)

/-- A `u64` is two `u32`, the higher first. -/
theorem be64_octet : be64 [a, b, c, d, e, f, g, h] = be32 [a, b, c, d] ++ be32 [e, f, g, h] := by
  have bytes_below : be64 [a, b, c, d, e, f, g, h] = be32 [a, b, c, d] ++ e ++ f ++ g ++ h := by
    calc be64 [a, b, c, d, e, f, g, h]
        = BitVec.ofNat 56 (beNat [a, b, c, d, e, f, g]) ++ h := ofNat_mul_add_toNat 56 _ h
      _ = BitVec.ofNat 48 (beNat [a, b, c, d, e, f]) ++ g ++ h := congrArg (· ++ h) (ofNat_mul_add_toNat 48 _ g)
      _ = BitVec.ofNat 40 (beNat [a, b, c, d, e]) ++ f ++ g ++ h := congrArg (· ++ g ++ h) (ofNat_mul_add_toNat 40 _ f)
      _ = be32 [a, b, c, d] ++ e ++ f ++ g ++ h := congrArg (· ++ f ++ g ++ h) (ofNat_mul_add_toNat 32 _ e)
  apply BitVec.eq_of_toNat_eq
  rw [bytes_below, toNat_append_eq_add, toNat_append_eq_add, toNat_append_eq_add, toNat_append_eq_add,
    toNat_append_eq_add, be32_quad_toNat e]
  omega

/-- R54: the weights of the eight bytes. -/
theorem be64_octet_toNat : (be64 [a, b, c, d, e, f, g, h]).toNat =
    a.toNat * 2 ^ 56 + b.toNat * 2 ^ 48 + c.toNat * 2 ^ 40 + d.toNat * 2 ^ 32 +
      e.toNat * 2 ^ 24 + f.toNat * 2 ^ 16 + g.toNat * 2 ^ 8 + h.toNat := by
  rw [be64_octet, toNat_append_eq_add, be32_quad_toNat, be32_quad_toNat]
  omega

end

theorem enc64_append (x y : U32) : enc64 (x ++ y) = enc32 x ++ enc32 y := by
  have high (i : Nat) : (x ++ y).extractLsb' (32 + i) 8 = x.extractLsb' i 8 := by
    rw [BitVec.extractLsb'_append_eq_of_le (Nat.le_add_right 32 i), Nat.add_sub_cancel_left]
  have low (i : Nat) (h : i + 8 ≤ 32) : (x ++ y).extractLsb' i 8 = y.extractLsb' i 8 :=
    BitVec.extractLsb'_append_eq_of_add_le h
  rw [enc64, high 24, high 16, high 8, high 0, low 24 (by decide), low 16 (by decide), low 8 (by decide),
    low 0 (by decide)]
  rfl

theorem enc64_be64_octet (a b c d e f g h : Byte) :
    enc64 (be64 [a, b, c, d, e, f, g, h]) = [a, b, c, d, e, f, g, h] := by
  rw [be64_octet, enc64_append, enc32_be32_quad, enc32_be32_quad]
  rfl

theorem be64_enc64 (v : U64) : be64 (enc64 v) = v := by
  have halves : v.extractLsb' 32 32 ++ v.extractLsb' 0 32 = v :=
    (BitVec.extractLsb'_append_extractLsb'_eq_extractLsb' rfl).trans BitVec.extractLsb'_eq_self
  calc be64 (enc64 v)
      = be64 (enc32 (v.extractLsb' 32 32) ++ enc32 (v.extractLsb' 0 32)) := by rw [← enc64_append, halves]
    _ = be32 (enc32 (v.extractLsb' 32 32)) ++ be32 (enc32 (v.extractLsb' 0 32)) := be64_octet ..
    _ = v := by rw [be32_enc32, be32_enc32, halves]

theorem encI32_beI32 {b : Bytes} (h : b.length = 4) : encI32 (beI32 b) = b := by
  rw [encI32, beI32, BitVec.ofInt_toInt, enc32_be32 h]

/-- R55: every `i32` is the reading of its two's complement. -/
theorem beI32_encI32 {v : Int} (low : -2 ^ 31 ≤ v) (high : v < 2 ^ 31) : beI32 (encI32 v) = v := by
  rw [encI32, beI32, be32_enc32]
  exact BitVec.toInt_ofInt_eq_self (by decide) low high

theorem beI32_eq_ite (b : Bytes) : beI32 b =
    if (be32 b).toNat < 2 ^ 31 then ((be32 b).toNat : Int) else (be32 b).toNat - 2 ^ 32 := by
  rw [beI32, BitVec.toInt_eq_toNat_cond]
  exact if_congr (by omega) rfl rfl

/-- Settles O20: clause by clause, from the weights of the bytes and the two inverses of each codec. -/
theorem integerCodecRoundTrips : Obligations.IntegerCodecRoundTrips := by
  unfold Obligations.IntegerCodecRoundTrips
  exact ⟨fun x => ⟨be8_enc8 x, rfl⟩, be16_enc16, be32_enc32, be64_enc64, fun v => beI32_encI32,
    fun x y => ⟨be16_pair_toNat x y, enc16_be16 rfl⟩,
    fun x y z w => ⟨be32_quad_toNat x y z w, enc32_be32_quad x y z w, beI32_eq_ite _, encI32_beI32 rfl⟩,
    fun a b c d e f g h => ⟨be64_octet_toNat a b c d e f g h, enc64_be64_octet a b c d e f g h⟩⟩

/-! ### Building -/

/-- `FRAME.BUILD` answers the builder's result on the port and keeps every register. -/
theorem exec_frameBuild (s : State) (serial : U32) (cmd : U16) (p : Bytes) :
    exec (.frameBuild serial cmd p) s = .next { s with out := s.out ++ [.rsp (buildFrame s.cfg serial cmd p)] } := by
  rw [exec_eq_after, State.after_eq]
  rfl

/-- Settles O21: the builder's three branches. -/
theorem frameBuildChecksThenSerializes : Obligations.FrameBuildChecksThenSerializes := by
  unfold Obligations.FrameBuildChecksThenSerializes
  intro s serial cmd p
  rw [exec_frameBuild, buildFrame]
  refine ⟨fun unknown => by rw [if_pos unknown], fun known long => ?_, fun known short => ?_⟩
  · rw [if_neg (by simp [known]), if_pos long]
  · refine ⟨frameBody serial cmd p, serialize serial cmd p, rfl, rfl, serialize_length .., ?_⟩
    rw [if_neg (by simp [known]), if_neg (Nat.not_lt.2 short)]

/-- Settles O27: the check of R141 fails. -/
theorem fragRefusesBadMtu : Obligations.FragRefusesBadMtu := by
  unfold Obligations.FragRefusesBadMtu
  intro s mtu base b bad
  rw [exec_eq_after, effectOf, fragResult, if_pos bad]
  rfl

/-! ### Parsing -/

theorem parseFrame_serialize {c : Cfg} {cmd : U16} {p : Bytes} (known : c.isCommand cmd = true) (hp : p.length ≤ 65535)
    (serial : U32) :
    parseFrame c (serialize serial cmd p) = .ok (frameOf serial cmd p (crc16 (frameBody serial cmd p))) := by
  rw [serialize_eq_frameBytes, parseFrame_frameBytes _ _ _ _ _ hp, known, if_neg Bool.noConfusion,
    if_neg (not_not.2 rfl), if_neg (not_not.2 rfl)]

/-- Settles O22: the builder's checksum is that of the span `serialize_take` cuts out. -/
theorem parseInvertsSerialize : Obligations.ParseInvertsSerialize := by
  unfold Obligations.ParseInvertsSerialize
  intro s serial cmd p known hp
  rw [exec_frameParse, frameResult, parseFrame_serialize known hp, serialize_take]
  rfl

section
variable {c : Cfg} {b : Bytes}

theorem parseFrame_of_tooShort (short : b.length < 14) : parseFrame c b = .error (.malformedFrame .tooShort) := by
  unfold parseFrame
  rw [if_pos short]

theorem parseFrame_of_badHeader (long : 14 ≤ b.length) (header : be16 (slice b 0 2) ≠ 0xAA55#16) :
    parseFrame c b = .error (.malformedFrame .badHeader) := by
  unfold parseFrame
  rw [if_neg (Nat.not_lt.2 long), if_pos header]

theorem parseFrame_of_lengthMismatch (long : 14 ≤ b.length) (header : be16 (slice b 0 2) = 0xAA55#16)
    (mismatch : b.length ≠ 14 + (be16 (slice b 6 8)).toNat) :
    parseFrame c b = .error (.malformedFrame .lengthMismatch) := by
  unfold parseFrame
  rw [if_neg (Nat.not_lt.2 long), if_neg (not_not.2 header)]
  exact if_pos mismatch

/-- An accepted string has passed R121's first three steps. -/
theorem form_of_parseFrame {f : Frame} (h : parseFrame c b = .ok f) :
    be16 (slice b 0 2) = 0xAA55#16 ∧ b.length = 14 + (be16 (slice b 6 8)).toNat := by
  have long : 14 ≤ b.length := by
    by_contra short
    rw [parseFrame_of_tooShort (Nat.not_le.1 short)] at h
    cases h
  have header : be16 (slice b 0 2) = 0xAA55#16 := by
    by_contra other
    rw [parseFrame_of_badHeader long other] at h
    cases h
  refine ⟨header, ?_⟩
  by_contra mismatch
  rw [parseFrame_of_lengthMismatch long header mismatch] at h
  cases h

end

/-- R128: what the parser accepts is the builder's frame of the fields it answers. -/
theorem eq_serialize_of_parseFrame {c : Cfg} {b : Bytes} {f : Frame} (h : parseFrame c b = .ok f) :
    ∃ serial cmd p, p.length ≤ 65535 ∧ c.isCommand cmd = true ∧ b = serialize serial cmd p ∧
      f = frameOf serial cmd p (crc16 (frameBody serial cmd p)) := by
  obtain ⟨header, length_ok⟩ := form_of_parseFrame h
  obtain ⟨serial, cmd, p, checksum, terminator, hp, rfl⟩ := exists_eq_frameBytes header length_ok
  rw [parseFrame_frameBytes _ _ _ _ _ hp] at h
  split_ifs at h with unknown bad_terminator mismatch
  obtain rfl := not_not.1 bad_terminator
  obtain rfl := not_not.1 mismatch
  exact ⟨serial, cmd, p, hp, by simpa using unknown, rfl, (Except.ok.inj h).symm⟩

theorem frameResult_eq_frame {c : Cfg} {b : Bytes} {f : Frame} : frameResult c b = .frame f ↔ parseFrame c b = .ok f := by
  rw [frameResult]
  cases parseFrame c b <;> simp

/-- Settles O23. -/
theorem acceptedFrameHasOneForm : Obligations.AcceptedFrameHasOneForm := by
  unfold Obligations.AcceptedFrameHasOneForm
  intro s b f h
  have answered : frameResult s.cfg b = .frame f := by
    rw [exec_frameParse] at h
    simpa using h
  obtain ⟨serial, cmd, p, hp, known, rfl, rfl⟩ := eq_serialize_of_parseFrame (frameResult_eq_frame.1 answered)
  exact ⟨rfl, known, lengthField_toNat hp, hp⟩

/-! ### Refused frames are dropped -/

theorem deliver_of_refused {c : Cfg} {b : Bytes} {e : Error} (h : parseFrame c b = .error e) (r : Registers) :
    deliver c b r = raise e r := by
  simp only [deliver, h]

/-- The error of a refused frame. -/
def refusal? : Except Error Frame → Option Error
  | .error e => some e
  | .ok _ => none

theorem refusal?_error (e : Error) : refusal? (.error e) = some e := rfl

theorem refusal?_ok (f : Frame) : refusal? (.ok f) = none := rfl

theorem refusal?_eq_some {x : Except Error Frame} {e : Error} : refusal? x = some e ↔ x = .error e := by
  cases x <;> simp [refusal?]

/-- Settles O38: the chain of the statement is the parser's, on raw bytes for the first clause and on the fields of a frame for
the second. -/
theorem refusedFrameIsDropped : Obligations.RefusedFrameIsDropped := by
  unfold Obligations.RefusedFrameIsDropped
  constructor
  · intro s id b l cmd computed found e hl hcmd hcomputed hfound failing
    have refused : parseFrame s.cfg b = .error e := by
      rw [← refusal?_eq_some, ← failing, parseFrame_eq_raw s.cfg b hl hcmd hcomputed hfound]
      simp only [apply_ite refusal?, refusal?_error, refusal?_ok]
    rw [exec_spNone, deliver_of_refused refused]
    rfl
  · rintro s serial cmd p found terminator computed e hp rfl failing
    have refused : parseFrame s.cfg (frameBytes serial cmd p found terminator) = .error e := by
      rw [← refusal?_eq_some, ← failing, serialize_take, parseFrame_frameBytes _ _ _ _ _ hp]
      simp only [apply_ite refusal?, refusal?_error, refusal?_ok]
    have dropped : s.after (deliver s.cfg (frameBytes serial cmd p found terminator) s.regs) =
        .next { s with out := s.out ++ [.err e] } := by
      rw [deliver_of_refused refused]
      rfl
    refine ⟨(exec_eq_after ..).trans dropped, ?_⟩
    rintro responded status rfl
    exact (exec_eq_after ..).trans dropped

end Sys2Proof.Machine
end

section
/-! PROOFS. A valid frame with one changed bit is refused (41_frame.md R125). -/

namespace Sys2Proof.Machine

/-! ### A changed bit and the slices of a string -/

theorem slice_flipBit_of_lt {b : Bytes} {k i : Nat} (h : k < i) (m j : Nat) :
    slice (flipBit b k j) i m = slice b i m := by
  rw [slice, flipBit, List.drop_modify_of_lt _ _ _ _ h, slice]

theorem slice_flipBit_of_le {b : Bytes} {k i : Nat} (h : i ≤ k) (m j : Nat) :
    slice (flipBit b k j) i m = flipBit (slice b i m) (k - i) j := by
  rw [slice, flipBit, List.drop_modify_of_ge _ _ _ _ h, List.take_modify]
  rfl

theorem flipBit_of_length_le {b : Bytes} {k : Nat} (h : b.length ≤ k) (j : Nat) : flipBit b k j = b :=
  List.modify_eq_self h

theorem slice_flipBit_of_outside {b : Bytes} {k i m : Nat} (h : k < i ∨ m ≤ k) (j : Nat) :
    slice (flipBit b k j) i m = slice b i m := by
  rcases Nat.lt_or_ge k i with before | from_i
  · exact slice_flipBit_of_lt before m j
  · rw [slice_flipBit_of_le from_i]
    refine flipBit_of_length_le ?_ j
    rw [slice_length]
    exact (Nat.min_le_left ..).trans (Nat.sub_le_sub_right (h.resolve_left (Nat.not_lt.2 from_i)) i)

theorem flipBit_ne {b : Bytes} {k j : Nat} (hk : k < b.length) (hj : j < 8) : flipBit b k j ≠ b := by
  intro same
  refine crcDetectsOneChangedBit b k j hk hj ?_
  rw [same]

/-- A changed bit changes the word it lies in. -/
theorem be16_flipBit_ne {b : Bytes} {k j : Nat} (hb : b.length = 2) (hk : k < 2) (hj : j < 8) :
    be16 (flipBit b k j) ≠ be16 b := by
  intro same
  refine flipBit_ne (hb.symm ▸ hk) hj ?_
  exact ((be16_eq_iff ((flipBit_length ..).trans hb) _).1 same).trans (enc16_be16 hb)

/-- Which bit of a word a bit of its bytes is. -/
theorem be16_flipBit_enc16 (v : U16) {k j : Nat} (hk : k < 2) (hj : j < 8) :
    be16 (flipBit (enc16 v) k j) = v ^^^ (1#16 <<< (8 * (1 - k) + j)) := by
  generalize hx : v.extractLsb' 8 8 = x
  generalize hy : v.extractLsb' 0 8 = y
  have bytes : enc16 v = [x, y] := by rw [enc16, hx, hy]
  have word : v = x ++ y := by rw [← be16_enc16 v, bytes, be16_pair]
  have low_bit : 1#16 <<< j = 0#8 ++ 1#8 <<< j := by interval_cases j <;> rfl
  have high_bit : 1#16 <<< (8 + j) = 1#8 <<< j ++ 0#8 := by interval_cases j <;> rfl
  rw [bytes, word]
  obtain rfl | rfl : k = 0 ∨ k = 1 := by omega
  · change be16 [x ^^^ 1#8 <<< j, y] = x ++ y ^^^ 1#16 <<< (8 + j)
    rw [be16_pair, high_bit, BitVec.xor_append, BitVec.xor_zero]
  · change be16 [x, y ^^^ 1#8 <<< j] = x ++ y ^^^ 1#16 <<< (0 + j)
    rw [be16_pair, Nat.zero_add, low_bit, BitVec.xor_append, BitVec.xor_zero]

/-! ### The parser on a string of the form of a frame -/

/-- R121 steps 4 to 6, once the first three have passed. -/
theorem parseFrame_of_form {c : Cfg} {b : Bytes} {l : Nat} (header : be16 (slice b 0 2) = 0xAA55#16)
    (length_field : (be16 (slice b 6 8)).toNat = l) (length_ok : b.length = 14 + l) :
    parseFrame c b =
      if c.isCommand (be16 (slice b 8 10)) = false then .error (.unknownCommand (be16 (slice b 8 10)))
      else if be16 (slice b (12 + l) (14 + l)) ≠ 0x0D0A#16 then .error (.malformedFrame .badTerminator)
      else if crc16 (slice b 0 (10 + l)) ≠ be16 (slice b (10 + l) (12 + l)) then
        .error (.checksumMismatch (crc16 (slice b 0 (10 + l))) (be16 (slice b (10 + l) (12 + l))))
      else .ok { serial := be32 (slice b 2 6), length := be16 (slice b 6 8), command := be16 (slice b 8 10),
                 payload := slice b 10 (10 + l), checksum := be16 (slice b (10 + l) (12 + l)) } := by
  subst length_field
  unfold parseFrame
  rw [if_neg (by omega), if_neg (not_not.2 header)]
  exact if_neg (not_not.2 length_ok)

/-! ### One changed bit of a built frame -/

section
variable (serial : U32) (cmd : U16) (p : Bytes)

theorem serialize_header : slice (serialize serial cmd p) 0 2 = enc16 0xAA55#16 := rfl

theorem serialize_lengthField : slice (serialize serial cmd p) 6 8 = enc16 (BitVec.ofNat 16 p.length) := rfl

theorem serialize_command : slice (serialize serial cmd p) 8 10 = enc16 cmd := rfl

theorem serialize_span : slice (serialize serial cmd p) 0 (10 + p.length) = frameBody serial cmd p :=
  serialize_take serial cmd p

theorem serialize_checksum :
    slice (serialize serial cmd p) (10 + p.length) (12 + p.length) = enc16 (crc16 (frameBody serial cmd p)) :=
  frameBytes_checksum ..

theorem serialize_terminator : slice (serialize serial cmd p) (12 + p.length) (14 + p.length) = enc16 0x0D0A#16 :=
  frameBytes_terminator ..

end

section
variable {c : Cfg} {serial : U32} {cmd : U16} {p : Bytes} {k j : Nat}

theorem parseFrame_flipBit_header (hj : j < 8) (hk : k < 2) :
    parseFrame c (flipBit (serialize serial cmd p) k j) = .error (.malformedFrame .badHeader) := by
  refine parseFrame_of_badHeader (by rw [flipBit_length, serialize_length]; omega) ?_
  rw [slice_flipBit_of_le (Nat.zero_le k), serialize_header, Nat.sub_zero]
  exact (be16_flipBit_ne rfl hk hj).trans_eq (be16_enc16 _)

theorem parseFrame_flipBit_length (hp : p.length ≤ 65535) (hj : j < 8) (hk : 6 ≤ k ∧ k < 8) :
    parseFrame c (flipBit (serialize serial cmd p) k j) = .error (.malformedFrame .lengthMismatch) := by
  refine parseFrame_of_lengthMismatch (by rw [flipBit_length, serialize_length]; omega) ?_ ?_
  · rw [slice_flipBit_of_outside (by omega), serialize_header, be16_enc16]
  · rw [flipBit_length, serialize_length, slice_flipBit_of_le hk.1, serialize_lengthField]
    intro same
    refine be16_flipBit_ne (b := enc16 (BitVec.ofNat 16 p.length)) rfl (by omega : k - 6 < 2) hj ?_
    rw [be16_enc16]
    exact BitVec.eq_of_toNat_eq ((lengthField_toNat hp).symm ▸ (Nat.add_left_cancel same).symm)

/-- R121 steps 1 to 3 pass when the bit lies beyond the header and outside the length; steps 4 to 6 remain. -/
theorem flipBit_form (j : Nat) (hp : p.length ≤ 65535) (hk : 2 ≤ k) (not_length : k < 6 ∨ 8 ≤ k) :
    be16 (slice (flipBit (serialize serial cmd p) k j) 0 2) = 0xAA55#16 ∧
    (be16 (slice (flipBit (serialize serial cmd p) k j) 6 8)).toNat = p.length ∧
    (flipBit (serialize serial cmd p) k j).length = 14 + p.length := by
  rw [slice_flipBit_of_outside (.inr hk), slice_flipBit_of_outside not_length, serialize_header, serialize_lengthField,
    be16_enc16, be16_enc16, flipBit_length, serialize_length]
  exact ⟨rfl, lengthField_toNat hp, rfl⟩

theorem parseFrame_flipBit_unknown (hp : p.length ≤ 65535) (hk : 2 ≤ k) (not_length : k < 6 ∨ 8 ≤ k)
    {cmd' : U16} (command : be16 (slice (flipBit (serialize serial cmd p) k j) 8 10) = cmd')
    (unknown : c.isCommand cmd' = false) :
    parseFrame c (flipBit (serialize serial cmd p) k j) = .error (.unknownCommand cmd') := by
  obtain ⟨header, length_field, length_ok⟩ := flipBit_form (serial := serial) (cmd := cmd) j hp hk not_length
  rw [parseFrame_of_form header length_field length_ok, command, if_pos unknown]

theorem parseFrame_flipBit_terminator (hp : p.length ≤ 65535) (hj : j < 8) (hk : 12 + p.length ≤ k)
    (inside : k < 14 + p.length) (known : c.isCommand cmd = true) :
    parseFrame c (flipBit (serialize serial cmd p) k j) = .error (.malformedFrame .badTerminator) := by
  obtain ⟨header, length_field, length_ok⟩ :=
    flipBit_form (serial := serial) (cmd := cmd) (k := k) j hp (by omega) (.inr (by omega))
  have bad : be16 (flipBit (enc16 0x0D0A#16) (k - (12 + p.length)) j) ≠ 0x0D0A#16 :=
    (be16_flipBit_ne rfl (by omega) hj).trans_eq (be16_enc16 _)
  rw [parseFrame_of_form header length_field length_ok, slice_flipBit_of_outside (.inr (by omega)), serialize_command,
    be16_enc16, known, if_neg Bool.noConfusion, slice_flipBit_of_le hk, serialize_terminator, if_pos bad]

/-- The bit lies in the span of the checksum or in the checksum itself: one of the two differs. -/
theorem checksum_flipBit_ne (hj : j < 8) (inside : k < 12 + p.length) :
    crc16 (slice (flipBit (serialize serial cmd p) k j) 0 (10 + p.length)) ≠
      be16 (slice (flipBit (serialize serial cmd p) k j) (10 + p.length) (12 + p.length)) := by
  rcases Nat.lt_or_ge k (10 + p.length) with in_span | in_checksum
  · rw [slice_flipBit_of_le (Nat.zero_le k), serialize_span, slice_flipBit_of_lt in_span, serialize_checksum, be16_enc16]
    exact crcDetectsOneChangedBit _ _ _ (by rw [frameBody_length]; omega) hj
  · rw [slice_flipBit_of_outside (.inr in_checksum), serialize_span, slice_flipBit_of_le in_checksum, serialize_checksum]
    have changed : be16 (flipBit (enc16 (crc16 (frameBody serial cmd p))) (k - (10 + p.length)) j) ≠
        crc16 (frameBody serial cmd p) := (be16_flipBit_ne rfl (by omega) hj).trans_eq (be16_enc16 _)
    exact changed.symm

theorem parseFrame_flipBit_checksum (hp : p.length ≤ 65535) (hj : j < 8) (hk : 2 ≤ k)
    (not_length : k < 6 ∨ 8 ≤ k) (inside : k < 12 + p.length)
    (known : c.isCommand (be16 (slice (flipBit (serialize serial cmd p) k j) 8 10)) = true) :
    ∃ x y : U16, x ≠ y ∧ parseFrame c (flipBit (serialize serial cmd p) k j) = .error (.checksumMismatch x y) := by
  obtain ⟨header, length_field, length_ok⟩ := flipBit_form (serial := serial) (cmd := cmd) j hp hk not_length
  refine ⟨_, _, checksum_flipBit_ne (serial := serial) (cmd := cmd) hj inside, ?_⟩
  rw [parseFrame_of_form header length_field length_ok, known, if_neg Bool.noConfusion,
    slice_flipBit_of_outside (i := 12 + p.length) (.inl inside), serialize_terminator, be16_enc16, if_neg (not_not.2 rfl),
    if_pos (checksum_flipBit_ne hj inside)]

end

theorem frameResult_of_refused {c : Cfg} {b : Bytes} {e : Error} (h : parseFrame c b = .error e) :
    frameResult c b = .err e := by
  simp only [frameResult, h]

/-- Settles O25: the five regions of a frame, one after the other. -/
theorem oneChangedBitIsRefused : Obligations.OneChangedBitIsRefused := by
  unfold Obligations.OneChangedBitIsRefused
  intro s serial cmd p k j known hp inside hj
  have answer {e : Error} (refused : parseFrame s.cfg (flipBit (serialize serial cmd p) k j) = .error e) :
      exec (.frameParse (flipBit (serialize serial cmd p) k j)) s = .next { s with out := s.out ++ [.rsp (.err e)] } := by
    rw [exec_frameParse, frameResult_of_refused refused]
  by_cases in_header : k < 2
  · exact ⟨_, answer (parseFrame_flipBit_header hj in_header), fun _ => rfl, fun _ => by omega, fun _ => by omega,
      fun _ => by omega, fun _ => by omega⟩
  by_cases in_length : 6 ≤ k ∧ k < 8
  · exact ⟨_, answer (parseFrame_flipBit_length hp hj in_length), fun _ => by omega, fun _ => by omega, fun _ => rfl,
      fun _ => by omega, fun _ => by omega⟩
  by_cases in_terminator : 12 + p.length ≤ k
  · exact ⟨_, answer (parseFrame_flipBit_terminator hp hj in_terminator inside known), fun _ => by omega,
      fun _ => by omega, fun _ => by omega, fun _ => by omega, fun _ => rfl⟩
  by_cases in_command : 8 ≤ k ∧ k < 10
  · have command : be16 (slice (flipBit (serialize serial cmd p) k j) 8 10) =
        cmd ^^^ (1#16 <<< (8 * (9 - k) + j)) := by
      rw [slice_flipBit_of_le in_command.1, serialize_command, be16_flipBit_enc16 cmd (by omega) hj,
        show 1 - (k - 8) = 9 - k by omega]
    cases recognised : s.cfg.isCommand (cmd ^^^ (1#16 <<< (8 * (9 - k) + j))) with
    | false =>
      have refused := parseFrame_flipBit_unknown hp (by omega) (.inr in_command.1) command recognised
      refine ⟨_, answer refused, fun _ => by omega, fun _ => by omega, fun _ => by omega, ?_, fun _ => by omega⟩
      rintro - cmd' rfl
      exact ⟨fun _ => rfl, fun other => absurd other (by simp [recognised])⟩
    | true =>
      obtain ⟨x, y, differ, refused⟩ := parseFrame_flipBit_checksum (c := s.cfg) (serial := serial) hp hj (by omega)
        (.inr in_command.1) (by omega) (command ▸ recognised)
      refine ⟨_, answer refused, fun _ => by omega, fun _ => ⟨x, y, differ, rfl⟩, fun _ => by omega, ?_,
        fun _ => by omega⟩
      rintro - cmd' rfl
      exact ⟨fun other => absurd other (by simp [recognised]), fun _ => ⟨x, y, differ, rfl⟩⟩
  · have command : be16 (slice (flipBit (serialize serial cmd p) k j) 8 10) = cmd := by
      rw [slice_flipBit_of_outside (by omega), serialize_command, be16_enc16]
    obtain ⟨x, y, differ, refused⟩ := parseFrame_flipBit_checksum (c := s.cfg) (serial := serial) hp hj (by omega)
      (by omega) (by omega) (command.symm ▸ known)
    exact ⟨_, answer refused, fun _ => by omega, fun _ => ⟨x, y, differ, rfl⟩, fun _ => by omega, fun _ => by omega,
      fun _ => by omega⟩

end Sys2Proof.Machine
end

section
/-! PROOFS. The reassembler (42_fragment_reassembly.md): single sub-packets, and whole and broken sequences. -/

namespace Sys2Proof.Machine

/-! ### Single sub-packets -/

/-- Settles O30: the parser reads back the sub-packet that was written. -/
theorem rxRunsTheSubpacket : Obligations.RxRunsTheSubpacket := by
  unfold Obligations.RxRunsTheSubpacket
  exact fun s st id d wf hd => exec_rx_subpkt wf st id hd

/-- R152 and R157: a `start` that fits opens a reassembly, after the notice of the one it aborts. -/
theorem exec_spStart_of_fits {s : State} {id : U32} {d : Bytes} (fits : d.length ≤ s.cfg.rsmBufMax) :
    exec (.spStart id d) s = .next { s with
      regs := opened id d s.regs
      out := s.out ++
        (if s.regs.rsmState = .assembling then [.err (.reassemblyAborted .startWhileAssembling)] else []) } := by
  rw [exec_eq_after, effectOf]
  rcases s.regs.rsmState_cases with idle | assembling
  · rw [rxStart_of_idle idle, openReassembly_of_fits fits, idle]
    rfl
  · rw [rxStart_of_assembling assembling, Effect.andThen, openReassembly_of_fits fits, assembling]
    rfl

/-- Settles O31. -/
theorem startOpensReassembly : Obligations.StartOpensReassembly := by
  unfold Obligations.StartOpensReassembly
  rintro s t id d wf hd fits rfl
  exact ⟨(exec_rx_subpkt wf .start id hd).trans (exec_spStart_of_fits fits), exec_spStart_of_fits fits⟩

/-- Settles O34: each append is the aborted one of R158. -/
theorem overflowAbortsReassembly : Obligations.OverflowAbortsReassembly := by
  unfold Obligations.OverflowAbortsReassembly
  rintro s cleared id d rfl
  constructor
  · intro overflow
    rw [exec_eq_after, effectOf]
    rcases s.regs.rsmState_cases with idle | assembling
    · rw [rxStart_of_idle idle, openReassembly_of_overflow overflow, idle, if_neg RsmState.noConfusion, List.append_nil]
      rfl
    · rw [rxStart_of_assembling assembling, Effect.andThen, openReassembly_of_overflow overflow, assembling, if_pos rfl,
        List.append_assoc]
      rfl
  · intro assembling expected overflow
    constructor
    · rw [exec_eq_after, effectOf, rxMiddle_of_overflow assembling expected overflow]
      rfl
    · rw [exec_eq_after, effectOf, rxLast_of_overflow assembling expected overflow]
      rfl

/-! ### A reassembly in progress -/

/-- The registers of a reassembly that began with the id `base` and holds these chunks. -/
def gathering (base : U32) (chunks : List Bytes) (r : Registers) : Registers :=
  { r with rsmState := .assembling, rsmBase := base, rsmCount := BitVec.ofNat 32 chunks.length, rsmBuf := chunks }

section
variable (base : U32) (chunks : List Bytes) (r : Registers)

theorem opened_eq_gathering (d : Bytes) : opened base d r = gathering base [d] r := rfl

theorem appendChunk_gathering (d : Bytes) :
    appendChunk d (gathering base chunks r) = gathering base (chunks ++ [d]) r := by
  rw [appendChunk, gathering, gathering, List.length_append, List.length_singleton, BitVec.ofNat_add]

theorem expectedId_gathering : expectedId (gathering base chunks r) = base + BitVec.ofNat 32 chunks.length := rfl

theorem rsmLen_gathering : (gathering base chunks r).rsmLen = chunks.flatten.length := rfl

theorem clearReassembly_gathering : clearReassembly (gathering base chunks r) = clearReassembly r := rfl

end

/-- The first `i` chunks of a string cut by `cs` (R145). -/
def firstChunks (b : Bytes) (cs i : Nat) : List Bytes := (List.range i).map fun n => (b.drop (n * cs)).take cs

theorem firstChunks_length (b : Bytes) (cs i : Nat) : (firstChunks b cs i).length = i := by
  rw [firstChunks, List.length_map, List.length_range]

theorem firstChunks_succ (b : Bytes) (cs i : Nat) :
    firstChunks b cs (i + 1) = firstChunks b cs i ++ [(b.drop (i * cs)).take cs] := by
  rw [firstChunks, List.range_succ, List.map_append]
  rfl

/-- The chunks in order are the string from its start. -/
theorem firstChunks_flatten (b : Bytes) (cs i : Nat) : (firstChunks b cs i).flatten = b.take (i * cs) := by
  induction i with
  | zero => rw [Nat.zero_mul]; rfl
  | succ i ih =>
    rw [firstChunks_succ, List.flatten_append, ih, List.flatten_singleton, Nat.succ_mul, List.take_add]

/-! ### The sequence of a cut string -/

section
variable {s : State} {mtu : Nat} {base : U32} {b : Bytes} (wf : s.cfg.wf) (low : 10 ≤ mtu) (high : mtu ≤ 65544)
include wf low high

/-- The unit at a position of the sequence is the sub-packet written there. -/
theorem exec_rx_fragment {i : Nat} (h : i < (fragment s.cfg b mtu base).length) {u : State} (hu : u.cfg = s.cfg) :
    exec (.rx (fragment s.cfg b mtu base)[i]) u = exec (SubPacket.instr {
      status := if (fragment s.cfg b mtu base).length = 1 then .whole else if i = 0 then .start
        else if i + 1 = (fragment s.cfg b mtu base).length then .last else .middle
      packetId := base + BitVec.ofNat 32 i, data := (b.drop (i * chunkSize mtu)).take (chunkSize mtu) }) u := by
  have short : ((b.drop (i * chunkSize mtu)).take (chunkSize mtu)).length ≤ 65535 :=
    (List.length_take_le _ _).trans (by rw [chunkSize]; omega)
  rw [getElem_fragment low h, ← hu]
  exact exec_rx_subpkt (hu ▸ wf) _ _ short

end

theorem gathered_fits {b : Bytes} {n : Nat} (fits : b.length ≤ n) (cs i : Nat) :
    (firstChunks b cs i).flatten.length + ((b.drop (i * cs)).take cs).length ≤ n := by
  rw [← List.length_append, firstChunks_flatten, ← List.take_add]
  exact (List.length_take_le' _ _).trans fits

/-- One event more at the end of a trace. -/
theorem runEvents_concat {es : List Instr} {i : Instr} {s t : State} (h : runEvents es s = .next t) :
    runEvents (es ++ [i]) s = exec i t := by
  have runs := exec_eq_after i t
  rw [runEvents_append h, runEvents_cons runs, runs]
  rfl

section
variable {s : State} {mtu : Nat} {base : U32} {b : Bytes} (wf : s.cfg.wf) (low : 10 ≤ mtu) (high : mtu ≤ 65544)
  (fits : b.length ≤ s.cfg.rsmBufMax) (idle : s.regs.rsmState = .idle)
include wf low high fits idle

/-- All but the last unit of a sequence are gathered, silently. -/
theorem runEvents_fragment_take {i : Nat} (h : i + 1 < (fragment s.cfg b mtu base).length) :
    runEvents (((fragment s.cfg b mtu base).take (i + 1)).map .rx) s =
      .next { s with regs := gathering base (firstChunks b (chunkSize mtu) (i + 1)) s.regs } := by
  induction i with
  | zero =>
    have first := exec_rx_fragment (base := base) (b := b) wf low high (i := 0) (by omega) (u := s) rfl
    rw [if_neg (by omega), if_pos rfl] at first
    rw [List.take_succ_eq_append_getElem (by omega), List.take_zero, List.nil_append, List.map_singleton,
      ← List.nil_append [Instr.rx _], runEvents_concat (t := s) rfl, first]
    have chunk_fits : ((b.drop (0 * chunkSize mtu)).take (chunkSize mtu)).length ≤ s.cfg.rsmBufMax :=
      (Nat.le_add_left _ _).trans (gathered_fits fits (chunkSize mtu) 0)
    refine (exec_spStart_of_fits chunk_fits).trans ?_
    rw [idle, if_neg RsmState.noConfusion, List.append_nil, opened_eq_gathering, BitVec.add_zero]
    rfl
  | succ i ih =>
    have next_unit := exec_rx_fragment (base := base) (b := b) wf low high (i := i + 1) (by omega)
      (u := { s with regs := gathering base (firstChunks b (chunkSize mtu) (i + 1)) s.regs }) rfl
    rw [if_neg (by omega), if_neg (by omega), if_neg (by omega)] at next_unit
    rw [List.take_succ_eq_append_getElem (by omega), List.map_append, List.map_singleton,
      runEvents_concat (ih (by omega)), next_unit, firstChunks_succ b _ (i + 1), ← appendChunk_gathering,
      ← State.after_silent { s with regs := gathering base (firstChunks b (chunkSize mtu) (i + 1)) s.regs }]
    have effect : rxMiddle s.cfg (base + BitVec.ofNat 32 (i + 1)) ((b.drop ((i + 1) * chunkSize mtu)).take (chunkSize mtu))
        (gathering base (firstChunks b (chunkSize mtu) (i + 1)) s.regs) = silent (appendChunk _ _) :=
      rxMiddle_of_fits rfl (by rw [expectedId_gathering, firstChunks_length])
        (by rw [rsmLen_gathering]; exact gathered_fits fits _ _)
    exact (exec_eq_after ..).trans (congrArg _ effect)

variable (ok : s.regs.reassemblerOk)
include ok

/-- R164: the sub-packets of a string in order are delivered as a `none` sub-packet with that string is. -/
theorem runEvents_fragment (id : U32) :
    runEvents ((fragment s.cfg b mtu base).map .rx) s = exec (.spNone id b) s := by
  rcases le_or_gt b.length (chunkSize mtu) with single | several
  · have short : b.length ≤ 65535 := single.trans (by rw [chunkSize]; omega)
    rw [fragment_of_fits single, List.map_singleton, ← List.nil_append [Instr.rx _], runEvents_concat (t := s) rfl,
      exec_rx_subpkt wf .whole base short]
    exact (exec_spNone s base b).trans (exec_spNone s id b).symm
  · obtain ⟨n, count⟩ : ∃ n, (fragment s.cfg b mtu base).length = n + 2 :=
      ⟨(fragment s.cfg b mtu base).length - 2, by
        have := two_le_ceilDiv low several
        rw [fragment_length low]
        omega⟩
    have covered : b.length ≤ (n + 2) * chunkSize mtu := by
      rw [← ceilDiv_le_iff (one_le_chunkSize low), ← count, fragment_length low]
      exact le_max_right _ _
    have last_unit := exec_rx_fragment (base := base) (b := b) wf low high (i := n + 1) (by omega)
      (u := { s with regs := gathering base (firstChunks b (chunkSize mtu) (n + 1)) s.regs }) rfl
    rw [if_neg (by omega), if_neg (by omega), if_pos count.symm] at last_unit
    have delivered : (firstChunks b (chunkSize mtu) (n + 1)).flatten ++
        (b.drop ((n + 1) * chunkSize mtu)).take (chunkSize mtu) = b := by
      rw [firstChunks_flatten, ← List.take_add, ← Nat.succ_mul]
      exact List.take_of_length_le covered
    rw [← List.take_length (l := fragment s.cfg b mtu base), count, List.take_succ_eq_append_getElem (by omega),
      List.map_append, List.map_singleton,
      runEvents_concat (runEvents_fragment_take wf low high fits idle (by omega)), last_unit, exec_spNone]
    refine (exec_eq_after ..).trans ?_
    have effect : rxLast s.cfg (base + BitVec.ofNat 32 (n + 1)) ((b.drop ((n + 1) * chunkSize mtu)).take (chunkSize mtu))
        (gathering base (firstChunks b (chunkSize mtu) (n + 1)) s.regs) = deliver s.cfg b s.regs := by
      rw [rxLast_of_fits rfl (by rw [expectedId_gathering, firstChunks_length])
        (by rw [rsmLen_gathering]; exact gathered_fits fits _ _), clearReassembly_gathering,
        clearReassembly_of_idle ok idle]
      exact congrArg (deliver s.cfg · s.regs) delivered
    exact congrArg _ effect

end

/-- Delivering a frame reads and keeps the reassembler's registers as they are. -/
theorem deliver_keeps_cleared (c : Cfg) (b : Bytes) {r : Registers} (ok : r.reassemblerOk) (idle : r.rsmState = .idle) :
    (deliver c b r).regs.rsmState = .idle ∧ (deliver c b r).regs.rsmBase = 0#32 ∧
      (deliver c b r).regs.rsmCount = 0#32 ∧ (deliver c b r).regs.rsmBuf = [] := by
  obtain ⟨table, regs_eq⟩ := deliver_regs c b r
  rw [regs_eq]
  exact ⟨idle, ok.1 idle⟩

/-- Settles O28: all but the last unit are silent, and the whole sequence is the one delivery. -/
theorem reassemblyInvertsFragmentation : Obligations.ReassemblyInvertsFragmentation := by
  unfold Obligations.ReassemblyInvertsFragmentation
  intro s mtu base id b wf ok idle low high fits
  have whole := runEvents_fragment (base := base) wf low high fits idle ok id
  obtain ⟨u, silent_part, nothing_out⟩ : ∃ u : State,
      runEvents ((fragment s.cfg b mtu base).dropLast.map .rx) s = .next u ∧ u.out = s.out := by
    rw [List.dropLast_eq_take]
    rcases Nat.lt_or_ge 1 (fragment s.cfg b mtu base).length with several | single
    · obtain ⟨n, count⟩ := Nat.exists_eq_add_of_le several
      rw [show (fragment s.cfg b mtu base).length - 1 = n + 1 by omega]
      exact ⟨_, runEvents_fragment_take wf low high fits idle (by omega), rfl⟩
    · rw [show (fragment s.cfg b mtu base).length - 1 = 0 by omega]
      exact ⟨s, rfl, rfl⟩
  have delivered : exec (.spNone id b) s = .next _ := exec_spNone s id b
  exact ⟨_, u, silent_part, nothing_out, whole.trans delivered, delivered, deliver_keeps_cleared s.cfg b ok idle⟩

/-! ### A broken sequence -/

/-- In `Idle` every `middle` and `end` is discarded with R159's notice. -/
theorem runEvents_idle_discards {s : State} (wf : s.cfg.wf) (idle : s.regs.rsmState = .idle) {units : List Bytes}
    (continuing : ∀ x ∈ units, ∃ (id : U32) (d : Bytes), d.length ≤ 65535 ∧
      (x = subpkt s.cfg .middle id d ∨ x = subpkt s.cfg .last id d)) :
    runEvents (units.map .rx) s = .next { s with
      out := s.out ++ List.replicate units.length (.err (.reassemblyAborted .noReassembly)) } := by
  induction units generalizing s with
  | nil => rw [List.length_nil, List.replicate_zero, List.append_nil]; rfl
  | cons x units ih =>
    obtain ⟨id, d, short, written⟩ := continuing x List.mem_cons_self
    have discarded : exec (.rx x) s = .next { s with out := s.out ++ [.err (.reassemblyAborted .noReassembly)] } := by
      obtain ⟨middle, last⟩ := idleDiscardsMiddleAndEnd s _ id d idle rfl
      rcases written with rfl | rfl
      · exact (exec_rx_subpkt wf .middle id short).trans middle
      · exact (exec_rx_subpkt wf .last id short).trans last
    rw [List.map_cons, runEvents_cons discarded,
      ih (s := { s with out := s.out ++ [.err (.reassemblyAborted .noReassembly)] }) wf idle
        fun y hy => continuing y (List.mem_cons_of_mem x hy),
      List.length_cons, List.replicate_succ, ← List.append_cons]

/-- The units of a sequence after the first are a `middle` or the `end`. -/
theorem mem_fragment_drop {c : Cfg} {mtu : Nat} {base : U32} {b x : Bytes} (low : 10 ≤ mtu) (high : mtu ≤ 65544) {m : Nat}
    (hx : x ∈ (fragment c b mtu base).drop (m + 1)) : ∃ (id : U32) (d : Bytes), d.length ≤ 65535 ∧
      (x = subpkt c .middle id d ∨ x = subpkt c .last id d) := by
  obtain ⟨i, hi, rfl⟩ := List.mem_iff_getElem.1 hx
  rw [List.length_drop] at hi
  have short : ((b.drop ((m + 1 + i) * chunkSize mtu)).take (chunkSize mtu)).length ≤ 65535 :=
    (List.length_take_le _ _).trans (by rw [chunkSize]; omega)
  rw [List.getElem_drop, getElem_fragment low, if_neg (by omega), if_neg (by omega)]
  refine ⟨base + BitVec.ofNat 32 (m + 1 + i), _, short, ?_⟩
  split_ifs
  · exact .inr rfl
  · exact .inl rfl

/-- R154: a `middle` with another id clears the reassembly in progress and is noticed. -/
theorem exec_rx_middle_of_unexpected {s : State} {base bad : U32} {chunks : List Bytes} {m : Nat} {d : Bytes}
    (wf : s.cfg.wf) (short : d.length ≤ 65535) (ok : s.regs.reassemblerOk) (idle : s.regs.rsmState = .idle)
    (count : chunks.length = m) (unexpected : bad ≠ base + BitVec.ofNat 32 m) :
    exec (.rx (subpkt s.cfg .middle bad d)) { s with regs := gathering base chunks s.regs } = .next { s with
      out := s.out ++ [.err (.reassemblyAborted (.unexpectedId (base + BitVec.ofNat 32 m) bad))] } := by
  subst count
  have effect : rxMiddle s.cfg bad d (gathering base chunks s.regs) =
      raise (.reassemblyAborted (.unexpectedId (base + BitVec.ofNat 32 chunks.length) bad)) s.regs := by
    rw [rxMiddle_of_unexpected rfl unexpected, abort, clearReassembly_gathering, clearReassembly_of_idle ok idle]
    rfl
  refine (exec_rx_subpkt (s := { s with regs := gathering base chunks s.regs }) wf .middle bad short).trans ?_
  exact (exec_eq_after ..).trans (congrArg _ effect)

/-- Settles O29: the units before the altered one are gathered, the altered one aborts, the rest meets `Idle`; the registers are
then those of the start, so a fresh sequence is delivered. -/
theorem brokenSequenceDeliversNothing : Obligations.BrokenSequenceDeliversNothing := by
  unfold Obligations.BrokenSequenceDeliversNothing
  rintro s mtu m base bad b sps wf ok idle low high fits rfl positive inner unexpected
  obtain ⟨n, rfl⟩ := Nat.exists_eq_succ_of_ne_zero (Nat.ne_of_gt positive)
  have fresh (o : List Output) (id : U32) :
      runEvents ((fragment s.cfg b mtu base).map .rx) { s with out := o } = exec (.spNone id b) { s with out := o } :=
    runEvents_fragment (s := { s with out := o }) wf low high fits idle ok id
  refine ⟨_, ?_, rfl, fresh _⟩
  have short : ((b.drop ((n + 1) * chunkSize mtu)).take (chunkSize mtu)).length ≤ 65535 :=
    (List.length_take_le _ _).trans (by rw [chunkSize]; omega)
  have gathered := runEvents_fragment_take (base := base) wf low high fits idle (i := n) (by omega)
  have aborted := exec_rx_middle_of_unexpected wf short ok idle (firstChunks_length b (chunkSize mtu) (n + 1)) unexpected
  have discarded (o : List Output) :
      runEvents (((fragment s.cfg b mtu base).drop (n + 1 + 1)).map .rx) { s with out := o } = .next { s with
        out := o ++ List.replicate ((fragment s.cfg b mtu base).drop (n + 1 + 1)).length
          (.err (.reassemblyAborted .noReassembly)) } :=
    runEvents_idle_discards (s := { s with out := o }) wf idle fun x hx => mem_fragment_drop low high hx
  rw [List.set_eq_take_append_cons_drop, if_pos (by omega), List.map_append, List.map_cons, runEvents_append gathered,
    Nat.sub_right_comm, ← Nat.sub_add_eq, ← List.length_drop]
  exact (runEvents_cons aborted).trans (discarded _)

end Sys2Proof.Machine
end

section
/-! PROOFS. Dispatch and correlation (43_dispatch_correlation.md): responses, the frame of a reception, `SEND`, and what each event
answers and writes. -/

namespace Sys2Proof.Machine

/-! ### Responses -/

/-- R175: where serials are unique, releasing a serial's registration clears the valid bit of every slot that holds it. -/
theorem releaseFirst_holds_eq_map {ps : List Slot} (unique : (pendingSerials ps).Nodup) (x : U32) :
    releaseFirst (Slot.holds x) ps =
      ps.map fun q => if q.valid = true ∧ q.serial = x then { q with valid := false } else q := by
  rw [releaseFirst_holds unique]
  exact List.map_congr_left fun q _ => if_congr holds_iff rfl rfl

theorem takeResponse_of_pending {x : Response} {r : Registers} (h : x.respondedSerial ∈ pendingSerials r.pend) :
    takeResponse x r = resolve x.respondedSerial (.reply x.status) r := by
  rcases takeResponse_cases x r with ⟨-, resolved⟩ | ⟨not_pending, -⟩
  · exact resolved
  · rw [isPending_iff.2 h] at not_pending
    cases not_pending

/-- Settles O39: the frame is parsed back, taken as a response, and its registration is the only one of its serial. -/
theorem responseResolvesItsRegistration : Obligations.ResponseResolvesItsRegistration := by
  unfold Obligations.ResponseResolvesItsRegistration
  rintro s t id serial responded cmd checksum status p inv hcmd hreply payload rfl pending rfl
  obtain rfl : p = responsePayload responded status := payload
  obtain ⟨-, -, -, unique, -⟩ := inv
  have resolved : deliver s.cfg (serialize serial cmd (responsePayload responded status)) s.regs =
      ⟨{ s.regs with pend := s.regs.pend.map fun q =>
        if q.valid = true ∧ q.serial = responded then { q with valid := false } else q },
        [.done responded (.reply status)]⟩ := by
    rw [deliver_serialize s.regs hcmd (by simp), route_of_response s.regs hreply, takeResponse_of_pending pending, resolve,
      releaseFirst_holds_eq_map unique]
  rw [exec_spNone, exec_frameResponse_valid, resolved]
  exact ⟨rfl, rfl⟩

/-! ### The registers a reception does not touch -/

section
variable (link : Bool) (mtu : Fin 65545) (time : U64) (serialNext pktidNext : U32)

/-- The same registers with other values of `LINK`, `MTU`, `TIME` and the counters. -/
def Registers.redispatched (r : Registers) : Registers :=
  { r with link := link, mtu := mtu, time := time, serialNext := serialNext, pktidNext := pktidNext }

section
variable (r : Registers)

theorem redispatched_rsmState : (r.redispatched link mtu time serialNext pktidNext).rsmState = r.rsmState := rfl

theorem redispatched_pend : (r.redispatched link mtu time serialNext pktidNext).pend = r.pend := rfl

theorem redispatched_expectedId : expectedId (r.redispatched link mtu time serialNext pktidNext) = expectedId r := rfl

theorem redispatched_rsmLen : (r.redispatched link mtu time serialNext pktidNext).rsmLen = r.rsmLen := rfl

end

/-- The same effect, from registers with other values of those five. -/
def Effect.redispatched (e : Effect) : Effect :=
  ⟨e.regs.redispatched link mtu time serialNext pktidNext, e.outs⟩

/-- The operation neither reads nor writes `LINK`, `MTU`, `TIME` and the counters. -/
def IgnoresDispatcher (f : Registers → Effect) : Prop :=
  ∀ (r : Registers) link mtu time serialNext pktidNext,
    f (r.redispatched link mtu time serialNext pktidNext) = (f r).redispatched link mtu time serialNext pktidNext

end

section
variable (c : Cfg) (id : U32) (d : Bytes)

theorem takeResponse_ignoresDispatcher (x : Response) : IgnoresDispatcher (takeResponse x) := by
  intro r link mtu time serialNext pktidNext
  unfold takeResponse isPending
  rw [redispatched_pend]
  split_ifs <;> rfl

theorem deliver_ignoresDispatcher : IgnoresDispatcher (deliver c d) := by
  intro r link mtu time serialNext pktidNext
  unfold deliver
  split
  · unfold route
    split
    · exact takeResponse_ignoresDispatcher _ r ..
    · rfl
  · rfl

theorem openReassembly_ignoresDispatcher : IgnoresDispatcher (openReassembly c id d) := by
  intro r link mtu time serialNext pktidNext
  unfold openReassembly
  split_ifs <;> rfl

theorem rxStart_ignoresDispatcher : IgnoresDispatcher (rxStart c id d) := by
  intro r link mtu time serialNext pktidNext
  have opened_same := openReassembly_ignoresDispatcher c id d (clearReassembly r) link mtu time serialNext pktidNext
  unfold rxStart
  rw [redispatched_rsmState]
  rcases r.rsmState_cases with idle | assembling
  · rw [idle]
    exact openReassembly_ignoresDispatcher c id d r ..
  · rw [assembling]
    exact congrArg (fun e : Effect => Effect.mk e.regs (_ ++ e.outs)) opened_same

theorem rxMiddle_ignoresDispatcher : IgnoresDispatcher (rxMiddle c id d) := by
  intro r link mtu time serialNext pktidNext
  unfold rxMiddle
  rw [redispatched_rsmState, redispatched_expectedId, redispatched_rsmLen]
  rcases r.rsmState_cases with idle | assembling
  · rw [idle]
    rfl
  · rw [assembling]
    dsimp only
    split_ifs <;> rfl

theorem rxLast_ignoresDispatcher : IgnoresDispatcher (rxLast c id d) := by
  intro r link mtu time serialNext pktidNext
  unfold rxLast
  rw [redispatched_rsmState, redispatched_expectedId, redispatched_rsmLen]
  rcases r.rsmState_cases with idle | assembling
  · rw [idle]
    rfl
  · rw [assembling]
    dsimp only
    split_ifs
    · rfl
    · rfl
    · exact deliver_ignoresDispatcher c _ (clearReassembly r) ..

theorem receive_ignoresDispatcher : IgnoresDispatcher (receive c d) := by
  intro r link mtu time serialNext pktidNext
  unfold receive
  split
  next sp _ =>
    obtain ⟨st, id, data⟩ := sp
    cases st with
    | whole => exact deliver_ignoresDispatcher c data r ..
    | start => exact rxStart_ignoresDispatcher c id data r ..
    | middle => exact rxMiddle_ignoresDispatcher c id data r ..
    | last => exact rxLast_ignoresDispatcher c id data r ..
  next => rfl

theorem effectOf_ignoresDispatcher {i : Instr} (h : unitEvent i = true) : IgnoresDispatcher (effectOf c i) := by
  cases i with
  | rx b => exact receive_ignoresDispatcher c b
  | frameCmd | frameResponse | spNone => exact deliver_ignoresDispatcher c _
  | spStart id d => exact rxStart_ignoresDispatcher c id d
  | spMiddle id d => exact rxMiddle_ignoresDispatcher c id d
  | spEnd id d => exact rxLast_ignoresDispatcher c id d
  | _ => cases h

end

/-- A reception writes the reassembler's registers and the pending table alone. -/
theorem IsReception.regs_eq {c : Cfg} {r : Registers} {e : Effect} (h : IsReception c r e) :
    e.regs.link = r.link ∧ e.regs.mtu = r.mtu ∧ e.regs.time = r.time ∧ e.regs.serialNext = r.serialNext ∧
      e.regs.pktidNext = r.pktidNext := by
  obtain ⟨r', reassembles, rest⟩ := h
  obtain ⟨serial_kept, pktid_kept, mtu_kept, link_kept, time_kept, -⟩ := reassembles.sameDispatcher
  rcases rest with ⟨b, rfl⟩ | ⟨notices, rfl⟩
  · obtain ⟨table, regs_eq⟩ := deliver_regs c b r'
    rw [regs_eq]
    exact ⟨link_kept, mtu_kept, time_kept, serial_kept, pktid_kept⟩
  · exact ⟨link_kept, mtu_kept, time_kept, serial_kept, pktid_kept⟩

/-- Settles O41: a reception keeps the five registers, and commutes with changing them. -/
theorem receptionIgnoresLinkMtuTimeAndCounters : Obligations.ReceptionIgnoresLinkMtuTimeAndCounters := by
  unfold Obligations.ReceptionIgnoresLinkMtuTimeAndCounters
  intro i s link mtu time serialNext pktidNext unit
  obtain ⟨link_kept, mtu_kept, time_kept, serial_kept, pktid_kept⟩ := (effectOf_isReception s.cfg s.regs unit).regs_eq
  have commutes := effectOf_ignoresDispatcher s.cfg unit s.regs link mtu time serialNext pktidNext
  refine ⟨_, _, link_kept, mtu_kept, time_kept, serial_kept, pktid_kept, exec_eq_after i s, ?_⟩
  exact (exec_eq_after ..).trans (congrArg (State.after _) commutes)

/-! ### Sending -/

theorem exec_send (s : State) (cmd : U16) (expectsReply : Bool) (timeout : U32) (p : Bytes) :
    exec (.send cmd expectsReply timeout p) s = s.after (send s.cfg cmd expectsReply timeout p s.regs) :=
  exec_eq_after ..

/-- The five checks in order, the last standing for the rest. -/
theorem sendCheck_getD (c : Cfg) (cmd : U16) (expectsReply : Bool) (p : Bytes) (r : Registers) :
    (sendCheck c cmd expectsReply p r).getD .busy =
      if r.link = false then .notConnected
      else if c.isCommand cmd = false then .unknownCommand cmd
      else if 65535 < p.length then .payloadTooLong
      else if r.mtu.val < 10 then .badMtu
      else .busy := by
  simp only [sendCheck, apply_ite (Option.getD · Error.busy), Option.getD_some, Option.getD_none, ite_self]

/-- Settles O42: a refused `SEND` answers the first failing check, and `Busy` is the only one left after the other four. -/
theorem sendRefusesInOrder : Obligations.SendRefusesInOrder := by
  unfold Obligations.SendRefusesInOrder
  intro s cmd expectsReply timeout p not_accepted
  rcases send_cases s cmd expectsReply timeout p with ⟨-, e, failing, refused⟩ | ⟨accepted, -⟩
  · have first_failing := sendCheck_getD s.cfg cmd expectsReply p s.regs
    rw [failing, Option.getD_some] at first_failing
    rw [exec_send, refused, ← first_failing]
    rfl
  · exact absurd accepted not_accepted

theorem exec_send_of_accepted {s : State} {cmd : U16} {expectsReply : Bool} {p : Bytes}
    (accepted : s.canSend cmd expectsReply p) (timeout : U32) :
    exec (.send cmd expectsReply timeout p) s = s.after (issue s.cfg cmd expectsReply timeout p s.regs) := by
  rcases send_cases s cmd expectsReply timeout p with ⟨not_accepted, -⟩ | ⟨-, issued⟩
  · exact absurd accepted not_accepted
  · rw [exec_send, issued]

/-- Settles O43: the effect of an accepted `SEND`, its registration in the lowest free slot. -/
theorem sendIssuesCommand : Obligations.SendIssuesCommand := by
  unfold Obligations.SendIssuesCommand
  rintro s cmd expectsReply timeout p sps accepted rfl
  refine ⟨if expectsReply then register (sendSlot timeout s.regs) s.regs.pend else s.regs.pend, ?_, ?_, ?_⟩
  · rw [exec_send_of_accepted accepted, List.append_assoc]
    rfl
  · rintro rfl
    rfl
  · rintro rfl
    obtain ⟨-, -, -, -, registers⟩ := accepted
    exact register_eq_set (registers rfl).1

/-- R42: no sub-packet is longer than the `MTU`. -/
theorem length_le_of_mem_fragment {c : Cfg} {mtu : Nat} {base : U32} {b x : Bytes} (low : 10 ≤ mtu)
    (hx : x ∈ fragment c b mtu base) : x.length ≤ mtu := by
  obtain ⟨i, hi, rfl⟩ := List.mem_iff_getElem.1 hx
  have chunk_fits : ((b.drop (i * chunkSize mtu)).take (chunkSize mtu)).length ≤ chunkSize mtu := List.length_take_le _ _
  rw [getElem_fragment low hi, subpkt_length]
  unfold chunkSize at chunk_fits ⊢
  omega

/-- What an accepted `SEND` writes to the transport. -/
theorem issue_txBytes (c : Cfg) (cmd : U16) (expectsReply : Bool) (timeout : U32) (p : Bytes) (r : Registers) :
    (issue c cmd expectsReply timeout p r).outs.filterMap Output.txBytes? = sendPackets c cmd p r := by
  have each : Output.txBytes? ∘ Output.tx = some := rfl
  rw [issue, List.filterMap_append, List.filterMap_map, each, List.filterMap_some]
  exact List.append_nil _

/-- Settles O45: the sub-packets reassemble to the frame, which the receiver forwards. -/
theorem sentCommandArrivesWhole : Obligations.SentCommandArrivesWhole := by
  unfold Obligations.SentCommandArrivesWhole
  intro a b a' cmd expectsReply timeout p new wf same_cfg ok idle fits accepted no_response sent appended
  have outs_eq : new = (issue a.cfg cmd expectsReply timeout p a.regs).outs := by
    rw [exec_send_of_accepted accepted, State.after_eq] at sent
    cases sent
    exact (List.append_cancel_left appended).symm
  obtain ⟨-, known, short, low, -⟩ := accepted
  have high : a.regs.mtu.val ≤ 65544 := Nat.le_of_lt_succ a.regs.mtu.isLt
  rw [outs_eq, issue_txBytes, sendPackets]
  rw [← same_cfg] at wf known no_response ⊢
  rw [runEvents_fragment wf low high ((serialize_length ..).trans_le fits) idle ok 0#32]
  obtain ⟨forwarded, -⟩ := applicationFrameIsForwarded b _ 0#32 a.regs.serialNext cmd p known short no_response rfl
  exact forwarded

end Sys2Proof.Machine
end

section
/-! PROOFS. What each event answers, writes and emits (10_state.md R41, R42; 20_memory.md R58; 60_exceptions.md R231, R236), and the
boot sequence (70_reset_and_hazards.md R263). -/

namespace Sys2Proof.Machine

/-! ### The shapes of an effect -/

/-- The outputs that are neither an answer to the host nor a write to the transport. -/
def Output.isNotice : Output → Bool
  | .app _ _ _ | .done _ _ | .err _ => true
  | .rsp _ | .tx _ => false

theorem deliver_notices (c : Cfg) (b : Bytes) (r : Registers) : ∀ o ∈ (deliver c b r).outs, o.isNotice = true := by
  have single {o : Output} (h : o.isNotice = true) : ∀ o' ∈ [o], o'.isNotice = true :=
    fun o' ho => List.mem_singleton.1 ho ▸ h
  rcases deliver_cases c b r with ⟨e, -, dropped⟩ | ⟨f, -, forwarded⟩ | ⟨f, x, -, -, -, response⟩
  · rw [dropped, raise_outs]
    exact single rfl
  · rw [forwarded]
    exact single rfl
  · rcases takeResponse_cases x r with ⟨-, resolved⟩ | ⟨-, stale⟩
    · rw [response, resolved, resolve_outs]
      exact single rfl
    · rw [response, stale, raise_outs]
      exact single rfl

theorem IsReception.notices {c : Cfg} {r : Registers} {e : Effect} (h : IsReception c r e) :
    ∀ o ∈ e.outs, o.isNotice = true := by
  obtain ⟨r', -, ⟨b, rfl⟩ | ⟨notices, rfl⟩⟩ := h
  · exact deliver_notices c b r'
  · intro o ho
    obtain ⟨e, -, rfl⟩ := List.mem_map.1 ho
    rfl

theorem resolveAll_notices (q : Slot → Bool) (why : Completion) (r : Registers) :
    ∀ o ∈ (resolveAll q why r).outs, o.isNotice = true := by
  intro o ho
  obtain ⟨p, -, rfl⟩ := List.mem_map.1 ho
  rfl

/-- What `LINK_DOWN` does once it has resolved the registrations: nothing, or abort a reassembly. -/
theorem disconnect_outs (r : Registers) : ∃ notices : List Error,
    (disconnect r).outs = (resolveAll (·.valid) .linkDown r).outs ++ notices.map .err := by
  unfold disconnect
  rw [Effect.andThen_outs]
  split
  · exact ⟨[], rfl⟩
  · exact ⟨[.reassemblyAborted .linkDown], rfl⟩

/-- An event that is not the host's emits notices alone. -/
theorem notices_of_not_hostEvent (c : Cfg) {i : Instr} (r : Registers) (h : hostEvent i = false) :
    ∀ o ∈ (effectOf c i r).outs, o.isNotice = true := by
  by_cases unit : unitEvent i = true
  · exact (effectOf_isReception c r unit).notices
  cases i with
  | setMtu | linkUp => exact fun o ho => absurd ho List.not_mem_nil
  | linkDown =>
    obtain ⟨notices, outs_eq⟩ := disconnect_outs r
    intro o ho
    change o ∈ (disconnect r).outs at ho
    rw [outs_eq, List.mem_append, List.mem_map] at ho
    rcases ho with resolved | ⟨e, -, rfl⟩
    · exact resolveAll_notices _ _ r o resolved
    · rfl
  | tick => exact resolveAll_notices _ _ _
  | rx | frameCmd | frameResponse | spNone | spStart | spMiddle | spEnd => exact absurd rfl unit
  | _ => cases h

/-- The serial of `Sent(serial)`. -/
def Rsp.IsSent (v : Rsp) : Prop := ∃ x, v = .sent x

/-- A refusal. -/
def Rsp.IsErr (v : Rsp) : Prop := ∃ e, v = .err e

/-- A host event answers once: keeping the registers, or with no refusal, or as an accepted `SEND`. -/
inductive HostEffect (s : State) (i : Instr) : Prop where
  | keeps (v : Rsp) (not_sent : ¬ v.IsSent) (eq : effectOf s.cfg i s.regs = respond v s.regs)
  | writes (v : Rsp) (r : Registers) (not_sent : ¬ v.IsSent) (not_err : ¬ v.IsErr)
      (not_send : ∀ cmd expectsReply timeout p, i ≠ .send cmd expectsReply timeout p)
      (eq : effectOf s.cfg i s.regs = respond v r)
  | issues (cmd : U16) (expectsReply : Bool) (timeout : U32) (p : Bytes) (send : i = .send cmd expectsReply timeout p)
      (accepted : s.canSend cmd expectsReply p)
      (eq : effectOf s.cfg i s.regs = issue s.cfg cmd expectsReply timeout p s.regs)

theorem buildFrame_not_sent (c : Cfg) (serial : U32) (cmd : U16) (p : Bytes) : ¬ (buildFrame c serial cmd p).IsSent := by
  rintro ⟨x, h⟩
  unfold buildFrame at h
  split_ifs at h

theorem frameResult_not_sent (c : Cfg) (b : Bytes) : ¬ (frameResult c b).IsSent := by
  rintro ⟨x, h⟩
  unfold frameResult at h
  split at h <;> cases h

theorem fragResult_not_sent (c : Cfg) (mtu : Nat) (base : U32) (b : Bytes) : ¬ (fragResult c mtu base b).IsSent := by
  rintro ⟨x, h⟩
  unfold fragResult at h
  split_ifs at h

theorem cancelled_not_sent (n : Nat) : ¬ (Rsp.cancelled n).IsSent := fun ⟨_, h⟩ => by cases h

theorem cancelled_not_err (n : Nat) : ¬ (Rsp.cancelled n).IsErr := fun ⟨_, h⟩ => by cases h

theorem hostEffect_of_hostEvent (s : State) {i : Instr} (h : hostEvent i = true) : HostEffect s i := by
  cases i with
  | reset =>
    exact .writes .ack (resetRegisters s.cfg) (fun ⟨_, h⟩ => by cases h) (fun ⟨_, h⟩ => by cases h)
      (fun _ _ _ _ h => by cases h) rfl
  | crcCalc b => exact .keeps (.crc (crc16 b)) (fun ⟨_, h⟩ => by cases h) rfl
  | frameBuild serial cmd p => exact .keeps _ (buildFrame_not_sent s.cfg serial cmd p) rfl
  | frameParse b => exact .keeps _ (frameResult_not_sent s.cfg b) rfl
  | frag mtu base b => exact .keeps _ (fragResult_not_sent s.cfg mtu.toNat base b) rfl
  | send cmd expectsReply timeout p =>
    rcases send_cases s cmd expectsReply timeout p with ⟨-, e, -, refused⟩ | ⟨accepted, issued⟩
    · exact .keeps (.err e) (fun ⟨_, h⟩ => by cases h) refused
    · exact .issues cmd expectsReply timeout p rfl accepted issued
  | cancel serial => exact .writes _ _ (cancelled_not_sent _) (cancelled_not_err _) (fun _ _ _ _ h => by cases h) rfl
  | cancelAll => exact .writes _ _ (cancelled_not_sent _) (cancelled_not_err _) (fun _ _ _ _ h => by cases h) rfl
  | _ => cases h

/-! ### Answers -/

theorem countP_isRsp_of_notices {outs : List Output} (h : ∀ o ∈ outs, o.isNotice = true) :
    outs.countP Output.isRsp = 0 := by
  refine List.countP_eq_zero.2 fun o ho => ?_
  have notice := h o ho
  cases o <;> simp_all [Output.isNotice, Output.isRsp]

theorem issue_outs (c : Cfg) (cmd : U16) (expectsReply : Bool) (timeout : U32) (p : Bytes) (r : Registers) :
    (issue c cmd expectsReply timeout p r).outs = (sendPackets c cmd p r).map .tx ++ [.rsp (.sent r.serialNext)] := rfl

/-- Settles O58: the host's events answer once; the others emit notices alone. -/
theorem oneResponsePerHostEvent : Obligations.OneResponsePerHostEvent := by
  unfold Obligations.OneResponsePerHostEvent
  intro i s t new ran appended
  rw [outs_of_exec_next ran appended]
  by_cases host : hostEvent i = true
  · rw [if_pos host]
    cases hostEffect_of_hostEvent s host with
    | keeps v _ eq => rw [eq]; rfl
    | writes v r _ _ _ eq => rw [eq]; rfl
    | issues cmd expectsReply timeout p _ _ eq =>
      have writes_only : ((sendPackets s.cfg cmd p s.regs).map Output.tx).countP Output.isRsp = 0 := by
        simp [List.countP_map, Function.comp_def, Output.isRsp]
      rw [eq, issue_outs, List.countP_append, writes_only]
      rfl
  · rw [if_neg host]
    exact countP_isRsp_of_notices (notices_of_not_hostEvent s.cfg s.regs (Bool.eq_false_of_not_eq_true host))

theorem isRefusal_not_notice {o : Output} (h : o.isRefusal = true) : o.isNotice = false := by
  cases o with
  | rsp v => rfl
  | _ => cases h

/-- Settles O57: a refusal is the one answer of a host event that keeps the registers. -/
theorem refusedOperationChangesNothing : Obligations.RefusedOperationChangesNothing := by
  unfold Obligations.RefusedOperationChangesNothing
  rintro i s t new ran appended ⟨o, mem, refusal⟩
  obtain rfl := outs_of_exec_next ran appended
  obtain rfl := eq_of_exec_next ran
  by_cases host : hostEvent i = true
  · cases hostEffect_of_hostEvent s host with
    | keeps v _ eq =>
      rw [eq]
      exact ⟨rfl, rfl⟩
    | writes v r _ not_err _ eq =>
      rw [eq, respond_outs, List.mem_singleton] at mem
      subst mem
      cases v with
      | err e => exact absurd ⟨e, rfl⟩ not_err
      | _ => cases refusal
    | issues cmd expectsReply timeout p _ _ eq =>
      rw [eq, issue_outs, List.mem_append, List.mem_map, List.mem_singleton] at mem
      rcases mem with ⟨b, -, rfl⟩ | rfl <;> cases refusal
  · have notice := notices_of_not_hostEvent s.cfg s.regs (Bool.eq_false_of_not_eq_true host) o mem
    rw [isRefusal_not_notice refusal] at notice
    cases notice

/-- Settles O44: only an accepted `SEND` emits `TX`, its sub-packets. -/
theorem onlySendWritesAndWithinMtu : Obligations.OnlySendWritesAndWithinMtu := by
  unfold Obligations.OnlySendWritesAndWithinMtu
  intro i s t new b ran appended mem
  rw [outs_of_exec_next ran appended] at mem
  by_cases host : hostEvent i = true
  · cases hostEffect_of_hostEvent s host with
    | keeps v _ eq =>
      rw [eq, respond_outs, List.mem_singleton] at mem
      cases mem
    | writes v r _ _ _ eq =>
      rw [eq, respond_outs, List.mem_singleton] at mem
      cases mem
    | issues cmd expectsReply timeout p send accepted eq =>
      rw [eq, issue_outs, List.mem_append, List.mem_singleton] at mem
      rcases mem with written | answer
      · obtain ⟨x, packet, same⟩ := List.mem_map.1 written
        cases same
        obtain ⟨-, -, -, low, -⟩ := accepted
        exact ⟨⟨cmd, expectsReply, timeout, p, send⟩, length_le_of_mem_fragment low packet⟩
      · cases answer
  · exact absurd (notices_of_not_hostEvent s.cfg s.regs (Bool.eq_false_of_not_eq_true host) _ mem) Bool.noConfusion

/-- Settles O56: the answers of the four pure operations. -/
theorem pureOperationsChangeNoRegister : Obligations.PureOperationsChangeNoRegister := by
  unfold Obligations.PureOperationsChangeNoRegister
  rintro c i (⟨b, rfl⟩ | ⟨serial, cmd, p, rfl⟩ | ⟨b, rfl⟩ | ⟨mtu, base, b, rfl⟩)
  · exact ⟨.crc (crc16 b), fun s _ => exec_crcCalc s b⟩
  · refine ⟨buildFrame c serial cmd p, ?_⟩
    rintro s rfl
    exact exec_frameBuild s serial cmd p
  · refine ⟨frameResult c b, ?_⟩
    rintro s rfl
    exact exec_frameParse s b
  · refine ⟨fragResult c mtu.toNat base b, ?_⟩
    rintro s rfl
    exact exec_eq_after ..

/-- Settles O60: the rows of R231. -/
theorem errorCodesAreThoseOfTheCauseTable : Obligations.ErrorCodesAreThoseOfTheCauseTable := by
  unfold Obligations.ErrorCodesAreThoseOfTheCauseTable
  exact ⟨rfl, fun _ => rfl, fun _ _ => rfl, fun _ => rfl, fun _ => rfl, fun _ => rfl, rfl, rfl, rfl, fun _ => rfl,
    fun _ => rfl, rfl, rfl, fun _ => rfl⟩

/-! ### Writers -/

/-- `LINK_DOWN` keeps the counters and `TIME` (R196). -/
theorem disconnect_keeps (r : Registers) : (disconnect r).regs.serialNext = r.serialNext ∧
    (disconnect r).regs.pktidNext = r.pktidNext ∧ (disconnect r).regs.time = r.time := by
  unfold disconnect
  rw [Effect.andThen_regs]
  split <;> exact ⟨rfl, rfl, rfl⟩

/-- Settles O59: instruction by instruction, the registers each effect writes. -/
theorem dispatcherRegistersHaveTheirWriters : Obligations.DispatcherRegistersHaveTheirWriters := by
  unfold Obligations.DispatcherRegistersHaveTheirWriters
  intro i s t ran not_reset
  have regs_eq : t.regs = (effectOf s.cfg i s.regs).regs := by rw [eq_of_exec_next ran]
  rw [regs_eq]
  by_cases unit : unitEvent i = true
  · obtain ⟨link_kept, mtu_kept, time_kept, serial_kept, pktid_kept⟩ :=
      (effectOf_isReception s.cfg s.regs unit).regs_eq
    exact ⟨fun _ => ⟨serial_kept, pktid_kept⟩, fun _ => time_kept, fun _ _ => mtu_kept, fun _ _ => link_kept⟩
  cases i with
  | reset => exact absurd rfl not_reset
  | send cmd expectsReply timeout p =>
    rcases send_cases s cmd expectsReply timeout p with ⟨-, e, -, refused⟩ | ⟨accepted, issued⟩
    · have eq : effectOf s.cfg (.send cmd expectsReply timeout p) s.regs = refuse e s.regs := refused
      rw [eq]
      exact ⟨fun _ => ⟨rfl, rfl⟩, fun _ => rfl, fun _ _ => rfl, fun _ _ => rfl⟩
    · have eq : effectOf s.cfg (.send cmd expectsReply timeout p) s.regs =
        issue s.cfg cmd expectsReply timeout p s.regs := issued
      rw [eq]
      exact ⟨fun refused => absurd accepted (refused _ _ _ _ rfl), fun _ => rfl, fun _ _ => rfl, fun _ _ => rfl⟩
  | crcCalc | frameBuild | frameParse | frag | cancel | cancelAll =>
    exact ⟨fun _ => ⟨rfl, rfl⟩, fun _ => rfl, fun _ _ => rfl, fun _ _ => rfl⟩
  | setMtu v => exact ⟨fun _ => ⟨rfl, rfl⟩, fun _ => rfl, fun other => absurd rfl (other v), fun _ _ => rfl⟩
  | linkUp => exact ⟨fun _ => ⟨rfl, rfl⟩, fun _ => rfl, fun _ _ => rfl, fun other => absurd rfl other⟩
  | linkDown =>
    obtain ⟨serial_kept, pktid_kept, time_kept⟩ := disconnect_keeps s.regs
    exact ⟨fun _ => ⟨serial_kept, pktid_kept⟩, fun _ => time_kept, fun _ other => absurd rfl other,
      fun _ other => absurd rfl other⟩
  | tick => exact ⟨fun _ => ⟨rfl, rfl⟩, fun other => absurd rfl other, fun _ _ => rfl, fun _ _ => rfl⟩
  | rx | frameCmd | frameResponse | spNone | spStart | spMiddle | spEnd => exact absurd rfl unit

/-! ### Boot -/

theorem exec_setMtu (s : State) (v : U32) :
    exec (.setMtu v) s = .next { s with regs := { s.regs with mtu := clampMtu v } } := by
  rw [exec_eq_after, effectOf, State.after_silent]

theorem exec_linkUp (s : State) : exec .linkUp s = .next { s with regs := { s.regs with link := true } } := by
  rw [exec_eq_after, effectOf, State.after_silent]

/-- The registers of R39 with the link up and an `MTU`. -/
def bootRegisters (c : Cfg) (v : U32) : Registers := { resetRegisters c with mtu := clampMtu v, link := true }

/-- The state that the boot sequence leads to. -/
def booted (s : State) (v : U32) : State := { s with regs := bootRegisters s.cfg v, out := s.out ++ [.rsp .ack] }

theorem canSend_booted {s : State} {v : U32} {cmd : U16} {p : Bytes} (wf : s.cfg.wf) (enough : 10 ≤ v.toNat)
    (known : s.cfg.isCommand cmd = true) (short : p.length ≤ 65535) (expectsReply : Bool) :
    (booted s v).canSend cmd expectsReply p := by
  obtain ⟨-, -, -, one_slot, -⟩ := wf
  have low : 10 ≤ (clampMtu v).val := le_min enough (by decide)
  have a_slot : freeSlot ∈ (resetRegisters s.cfg).pend := List.mem_replicate.2 ⟨by omega, rfl⟩
  refine ⟨rfl, known, short, low, fun _ => ⟨⟨freeSlot, a_slot, rfl⟩, fun q hq valid => ?_⟩⟩
  rw [resetRegisters_pend_invalid hq] at valid
  cases valid

theorem runEvents_boot (s : State) (v : U32) :
    runEvents [.reset, .linkUp, .setMtu v] s = .next (booted s v) ∧
      runEvents [.reset, .setMtu v, .linkUp] s = .next (booted s v) := by
  constructor
  · rw [runEvents_cons (exec_reset s), runEvents_cons (exec_linkUp _), runEvents_cons (exec_setMtu _ v)]
    rfl
  · rw [runEvents_cons (exec_reset s), runEvents_cons (exec_setMtu _ v), runEvents_cons (exec_linkUp _)]
    rfl

/-- Settles O55: both orders lead to the same state, where no check of `SEND` fails. -/
theorem bootSequenceEnablesSend : Obligations.BootSequenceEnablesSend := by
  unfold Obligations.BootSequenceEnablesSend
  intro s v timeout cmd expectsReply p wf enough known short
  have sent := exec_send_of_accepted (canSend_booted wf enough known short expectsReply) timeout
  obtain ⟨link_first, mtu_first⟩ := runEvents_boot s v
  refine ⟨_, (runEvents_concat link_first).trans sent, (runEvents_concat mtu_first).trans sent, ?_⟩
  rw [issue_outs, ← List.append_assoc]
  exact List.getLast?_concat

end Sys2Proof.Machine
end

section
/-! PROOFS. Runs of events (43_dispatch_correlation.md R183, R188, R197, R198): the serials they issue and what becomes of a
registration. -/

namespace Sys2Proof.Machine

/-! ### A run as a fold -/

/-- The state after an event. -/
def State.next (s : State) (i : Instr) : State :=
  { s with regs := (effectOf s.cfg i s.regs).regs, out := s.out ++ (effectOf s.cfg i s.regs).outs }

theorem exec_eq_next (i : Instr) (s : State) : exec i s = .next (s.next i) := exec_eq_after i s

/-- What the events of a trace emit, in order. -/
def emitted : List Instr → State → List Output
  | [], _ => []
  | i :: es, s => (effectOf s.cfg i s.regs).outs ++ emitted es (s.next i)

theorem runEvents_eq_foldl (es : List Instr) (s : State) : runEvents es s = .next (es.foldl State.next s) := by
  induction es generalizing s with
  | nil => rfl
  | cons i es ih => exact (runEvents_cons (exec_eq_next i s)).trans (ih (s.next i))

theorem foldl_next_out (es : List Instr) (s : State) : (es.foldl State.next s).out = s.out ++ emitted es s := by
  induction es generalizing s with
  | nil => exact (List.append_nil _).symm
  | cons i es ih => exact (ih (s.next i)).trans (List.append_assoc ..)

/-! ### Serials issued -/

theorem sentSerial?_of_notice {o : Output} (h : o.isNotice = true) : o.sentSerial? = none := by
  cases o with
  | rsp v => cases h
  | _ => rfl

theorem sentSerials_respond {v : Rsp} (h : ¬ v.IsSent) : [Output.rsp v].filterMap Output.sentSerial? = [] := by
  cases v with
  | sent x => exact absurd ⟨x, rfl⟩ h
  | _ => rfl

theorem sentSerials_issue (c : Cfg) (cmd : U16) (expectsReply : Bool) (timeout : U32) (p : Bytes) (r : Registers) :
    (issue c cmd expectsReply timeout p r).outs.filterMap Output.sentSerial? = [r.serialNext] := by
  have writes_none : ((sendPackets c cmd p r).map Output.tx).filterMap Output.sentSerial? = [] :=
    List.filterMap_eq_nil_iff.2 fun o ho => by
      obtain ⟨b, -, rfl⟩ := List.mem_map.1 ho
      rfl
  rw [issue_outs, List.filterMap_append, writes_none]
  rfl

/-- R22: an event other than `RESET` issues no serial and keeps `SERIAL_NEXT`, or issues it and counts on. -/
theorem serials_of_event (s : State) {i : Instr} (h : i ≠ .reset) :
    ((effectOf s.cfg i s.regs).outs.filterMap Output.sentSerial? = [] ∧
      (s.next i).regs.serialNext = s.regs.serialNext) ∨
    ((effectOf s.cfg i s.regs).outs.filterMap Output.sentSerial? = [s.regs.serialNext] ∧
      (s.next i).regs.serialNext = s.regs.serialNext + 1#32) := by
  obtain ⟨kept, -⟩ := dispatcherRegistersHaveTheirWriters i s (s.next i) (exec_eq_next i s) h
  by_cases host : hostEvent i = true
  · cases hostEffect_of_hostEvent s host with
    | keeps v not_sent eq =>
      refine .inl ⟨by rw [eq]; exact sentSerials_respond not_sent, ?_⟩
      rw [State.next, eq]
      rfl
    | writes v r not_sent _ not_send eq =>
      refine .inl ⟨by rw [eq]; exact sentSerials_respond not_sent, (kept fun cmd expectsReply timeout p send => ?_).1⟩
      exact absurd send (not_send _ _ _ _)
    | issues cmd expectsReply timeout p _ _ eq =>
      refine .inr ⟨by rw [eq]; exact sentSerials_issue .., ?_⟩
      rw [State.next, eq]
      rfl
  · refine .inl ⟨List.filterMap_eq_nil_iff.2 fun o ho => sentSerial?_of_notice
      (notices_of_not_hostEvent s.cfg s.regs (Bool.eq_false_of_not_eq_true host) o ho), (kept ?_).1⟩
    rintro cmd expectsReply timeout p rfl
    exact absurd rfl host

theorem map_range_succ_serial (a : U32) (n : Nat) :
    (List.range (n + 1)).map (fun k => a + BitVec.ofNat 32 k) =
      a :: (List.range n).map fun k => a + 1#32 + BitVec.ofNat 32 k := by
  rw [List.range_succ_eq_map, List.map_cons, List.map_map, BitVec.add_zero]
  refine congrArg (a :: ·) (List.map_congr_left fun k _ => ?_)
  rw [Function.comp_apply, Nat.succ_eq_add_one, BitVec.ofNat_add, BitVec.add_assoc, BitVec.add_comm 1#32]

/-- The serials of a run without `RESET` count on from `SERIAL_NEXT`. -/
theorem serials_of_run (es : List Instr) (s : State) (h : .reset ∉ es) : ∃ n : Nat,
    (emitted es s).filterMap Output.sentSerial? = (List.range n).map (fun k => s.regs.serialNext + BitVec.ofNat 32 k) ∧
      (es.foldl State.next s).regs.serialNext = s.regs.serialNext + BitVec.ofNat 32 n := by
  induction es generalizing s with
  | nil => exact ⟨0, rfl, (BitVec.add_zero _).symm⟩
  | cons i es ih =>
    obtain ⟨not_reset, rest⟩ := List.ne_and_not_mem_of_not_mem_cons h
    obtain ⟨n, issued, final⟩ := ih (s.next i) rest
    rcases serials_of_event s not_reset.symm with ⟨none_issued, kept⟩ | ⟨one_issued, counted⟩
    · refine ⟨n, ?_, ?_⟩
      · rw [emitted, List.filterMap_append, none_issued, issued, kept]
        rfl
      · rw [List.foldl_cons, final, kept]
    · refine ⟨n + 1, ?_, ?_⟩
      · rw [emitted, List.filterMap_append, one_issued, issued, counted, map_range_succ_serial]
        rfl
      · rw [List.foldl_cons, final, counted, BitVec.ofNat_add, BitVec.add_assoc, BitVec.add_comm 1#32]

/-- Settles O46: `RESET` sets the counter, and from there a run counts on. -/
theorem serialsAreConsecutive : Obligations.SerialsAreConsecutive := by
  unfold Obligations.SerialsAreConsecutive
  intro s es no_reset
  obtain ⟨n, issued, final⟩ := serials_of_run es (s.next .reset) no_reset
  exact ⟨_, emitted es (s.next .reset), n, runEvents_eq_foldl (.reset :: es) s, foldl_next_out es (s.next .reset),
    issued, final⟩

end Sys2Proof.Machine
end

section
/-! PROOFS. What becomes of a registration (43_dispatch_correlation.md R183, R188, R198): what one event does to the pending table,
and a registration's way through a run. -/

namespace Sys2Proof.Machine

/-! ### The serials an event resolves -/

/-- The serial of `DONE(serial, _)`. -/
def Output.doneSerial? : Output → Option U32
  | .done x _ => some x
  | .rsp _ | .tx _ | .app _ _ _ | .err _ => none

/-- The serials resolved, in order of emission. -/
def resolvedSerials (outs : List Output) : List U32 := outs.filterMap Output.doneSerial?

theorem mem_resolvedSerials {x : U32} {outs : List Output} : x ∈ resolvedSerials outs ↔ ∃ why, .done x why ∈ outs := by
  rw [resolvedSerials, List.mem_filterMap]
  constructor
  · rintro ⟨o, mem, serial⟩
    cases o with
    | done y why => cases serial; exact ⟨why, mem⟩
    | _ => cases serial
  · rintro ⟨why, mem⟩
    exact ⟨_, mem, rfl⟩

theorem countP_isDoneOf (x : U32) (outs : List Output) :
    outs.countP (Output.isDoneOf x) = (resolvedSerials outs).count x := by
  rw [resolvedSerials, List.count_filterMap]
  refine List.countP_congr fun o _ => ?_
  cases o <;> simp [Output.isDoneOf, Output.doneSerial?]

theorem resolvedSerials_append (a b : List Output) :
    resolvedSerials (a ++ b) = resolvedSerials a ++ resolvedSerials b := List.filterMap_append ..

theorem resolvedSerials_done (ps : List Slot) (why : Completion) :
    resolvedSerials (ps.map fun p => .done p.serial why) = ps.map (·.serial) := by
  rw [resolvedSerials, List.filterMap_map]
  exact congrFun (List.filterMap_eq_map' (f := Slot.serial)) ps

theorem resolvedSerials_err (notices : List Error) : resolvedSerials (notices.map .err) = [] :=
  List.filterMap_eq_nil_iff.2 fun o ho => by
    obtain ⟨e, -, rfl⟩ := List.mem_map.1 ho
    rfl

theorem resolvedSerials_issue (c : Cfg) (cmd : U16) (expectsReply : Bool) (timeout : U32) (p : Bytes) (r : Registers) :
    resolvedSerials (issue c cmd expectsReply timeout p r).outs = [] :=
  List.filterMap_eq_nil_iff.2 fun o ho => by
    rw [issue_outs, List.mem_append, List.mem_map, List.mem_singleton] at ho
    rcases ho with ⟨b, -, rfl⟩ | rfl <;> rfl

/-! ### The pending table under a test -/

theorem releaseAll_of_none {q : Slot → Bool} {ps : List Slot} (h : ∀ p ∈ ps, q p = false) : releaseAll q ps = ps :=
  (List.map_congr_left fun p hp => by rw [h p hp, if_neg Bool.noConfusion]; rfl).trans (List.map_id ps)

theorem releaseAll_cons (q : Slot → Bool) (p : Slot) (ps : List Slot) :
    releaseAll q (p :: ps) = (if q p then p.release else p) :: releaseAll q ps := rfl

theorem mem_releaseAll_of_not {q : Slot → Bool} {p : Slot} {ps : List Slot} (hp : p ∈ ps) (h : q p = false) :
    p ∈ releaseAll q ps :=
  List.mem_map.2 ⟨p, hp, by rw [h, if_neg Bool.noConfusion]⟩

/-- The registrations that a test takes and those it leaves are those there were. -/
theorem taken_append_left_perm {q : Slot → Bool} (occupied : ∀ p, q p = true → p.valid = true) (ps : List Slot) :
    ((ps.filter q).map (·.serial) ++ pendingSerials (releaseAll q ps)).Perm (pendingSerials ps) := by
  induction ps with
  | nil => exact .nil
  | cons p ps ih =>
    rw [releaseAll_cons, pendingSerials_cons, pendingSerials_cons p]
    by_cases taken : q p = true
    · rw [List.filter_cons_of_pos taken, if_pos taken, if_pos (occupied p taken), Slot.release_valid]
      exact ih.cons p.serial
    · rw [List.filter_cons_of_neg taken, if_neg taken]
      exact (List.perm_append_comm_assoc ..).trans (ih.append_left _)

/-- Where serials are unique, the test of a pending serial takes one slot. -/
theorem filter_holds_serials {ps : List Slot} {x : U32} (unique : (pendingSerials ps).Nodup) (pending : x ∈ pendingSerials ps) :
    (ps.filter (Slot.holds x)).map (·.serial) = [x] := by
  have same_test : ps.filter (Slot.holds x) = (ps.filter (·.valid)).filter fun p => p.serial == x := by
    rw [List.filter_filter]
    exact List.filter_congr fun p _ => Bool.and_comm ..
  have serials : (ps.filter (Slot.holds x)).map (·.serial) = (pendingSerials ps).filter (· == x) := by
    rw [same_test, pendingSerials, List.filter_map]
    rfl
  rw [serials, List.filter_beq, unique.count, if_pos pending]
  rfl

/-! ### What one event does to the table -/

/-- The table and the resolved serials after an event: some registrations are resolved, or withdrawn silently, or all are dropped
by `RESET`, or one is made by a `SEND`. -/
inductive TableEffect (s : State) (i : Instr) (e : Effect) : Prop where
  | resolves (q : Slot → Bool) (occupied : ∀ p, q p = true → p.valid = true) (pend : e.regs.pend = releaseAll q s.regs.pend)
      (dones : resolvedSerials e.outs = (s.regs.pend.filter q).map (·.serial))
  | withdraws (q : Slot → Bool) (which : i = .cancelAll ∨ ∃ y, i = .cancel y ∧ q = Slot.holds y)
      (pend : e.regs.pend = releaseAll q s.regs.pend) (dones : resolvedSerials e.outs = [])
  | resets (reset : i = .reset) (pend : pendingSerials e.regs.pend = []) (dones : resolvedSerials e.outs = [])
  | registers (cmd : U16) (timeout : U32) (p : Bytes) (accepted : s.canSend cmd true p)
      (pend : e.regs.pend = register (sendSlot timeout s.regs) s.regs.pend) (dones : resolvedSerials e.outs = [])
      (sent : .rsp (.sent s.regs.serialNext) ∈ e.outs)

section
variable {s : State} {i : Instr} {e : Effect}

theorem TableEffect.of_unchanged (pend : e.regs.pend = s.regs.pend) (dones : resolvedSerials e.outs = []) :
    TableEffect s i e :=
  .resolves (fun _ => false) (fun _ h => by cases h) (pend.trans (releaseAll_of_none fun _ _ => rfl).symm)
    (dones.trans (by rw [List.filter_false]; rfl))

theorem TableEffect.of_resolveAll {q : Slot → Bool} (occupied : ∀ p, q p = true → p.valid = true) {why : Completion}
    {r : Registers} (same_table : r.pend = s.regs.pend) (pend : e.regs.pend = (resolveAll q why r).regs.pend)
    (dones : resolvedSerials e.outs = resolvedSerials (resolveAll q why r).outs) : TableEffect s i e := by
  refine .resolves q occupied (pend.trans ?_) (dones.trans ?_)
  · rw [resolveAll_regs, same_table]
  · rw [resolveAll_outs, resolvedSerials_done, same_table]

theorem TableEffect.of_deliver (inv : s.Inv) (b : Bytes) {r : Registers} (same_table : r.pend = s.regs.pend)
    (eq : e = deliver s.cfg b r) : TableEffect s i e := by
  obtain ⟨-, -, -, unique, -⟩ := inv
  subst eq
  rcases deliver_cases s.cfg b r with ⟨e, -, dropped⟩ | ⟨f, -, forwarded⟩ | ⟨f, x, -, -, -, response⟩
  · exact .of_unchanged (by rw [dropped]; exact same_table) (by rw [dropped]; rfl)
  · exact .of_unchanged (by rw [forwarded]; exact same_table) (by rw [forwarded]; rfl)
  · rcases takeResponse_cases x r with ⟨pending, resolved⟩ | ⟨-, stale⟩
    · rw [isPending_iff, same_table] at pending
      refine .resolves (Slot.holds x.respondedSerial) (fun p h => (holds_iff.1 h).1) ?_ ?_
      · rw [response, resolved, resolve_regs, ← releaseFirst_holds unique, same_table]
      · rw [response, resolved, filter_holds_serials unique pending]
        rfl
    · exact .of_unchanged (by rw [response, stale]; exact same_table) (by rw [response, stale]; rfl)

theorem TableEffect.of_isReception (inv : s.Inv) (h : IsReception s.cfg s.regs e) : TableEffect s i e := by
  obtain ⟨r', reassembles, rest⟩ := h
  obtain ⟨-, -, -, -, -, pend_kept⟩ := reassembles.sameDispatcher
  rcases rest with ⟨b, eq⟩ | ⟨notices, rfl⟩
  · exact .of_deliver inv b pend_kept eq
  · exact .of_unchanged pend_kept (resolvedSerials_err notices)

end

theorem expired_occupied {now : U64} {p : Slot} (h : expired now p = true) : p.valid = true := (expired_iff.1 h).1

theorem disconnect_pend (r : Registers) : (disconnect r).regs.pend = (resolveAll (·.valid) .linkDown r).regs.pend := by
  unfold disconnect
  rw [Effect.andThen_regs]
  split <;> rfl

/-- What every event does to the pending table. -/
theorem tableEffect {s : State} (inv : s.Inv) (i : Instr) : TableEffect s i (effectOf s.cfg i s.regs) := by
  by_cases unit : unitEvent i = true
  · exact .of_isReception inv (effectOf_isReception s.cfg s.regs unit)
  obtain ⟨-, -, -, unique, -⟩ := id inv
  cases i with
  | reset => exact .resets rfl (pendingSerials_eq_nil.2 fun _ => resetRegisters_pend_invalid) rfl
  | crcCalc | frameBuild | frameParse | frag | setMtu | linkUp => exact .of_unchanged rfl rfl
  | send cmd expectsReply timeout p =>
    rcases send_cases s cmd expectsReply timeout p with ⟨-, e, -, refused⟩ | ⟨accepted, issued⟩
    · have eq : effectOf s.cfg (.send cmd expectsReply timeout p) s.regs = refuse e s.regs := refused
      rw [eq]
      exact .of_unchanged rfl rfl
    · have eq : effectOf s.cfg (.send cmd expectsReply timeout p) s.regs =
        issue s.cfg cmd expectsReply timeout p s.regs := issued
      rw [eq]
      cases expectsReply with
      | false => exact .of_unchanged rfl (resolvedSerials_issue ..)
      | true =>
        exact .registers cmd timeout p accepted rfl (resolvedSerials_issue ..)
          (List.mem_append_right _ List.mem_cons_self)
  | cancel x => exact .withdraws (Slot.holds x) (.inr ⟨x, rfl, rfl⟩) (releaseFirst_holds unique) rfl
  | cancelAll => exact .withdraws (·.valid) (.inl rfl) rfl rfl
  | linkDown =>
    obtain ⟨notices, outs_eq⟩ := disconnect_outs s.regs
    refine .of_resolveAll (fun _ h => h) (r := s.regs) rfl (disconnect_pend s.regs) ?_
    change resolvedSerials (disconnect s.regs).outs = _
    rw [outs_eq, resolvedSerials_append, resolvedSerials_err, List.append_nil]
  | tick =>
    exact .of_resolveAll (fun _ => expired_occupied) (r := { s.regs with time := s.regs.time + 1#64 }) rfl rfl rfl
  | rx | frameCmd | frameResponse | spNone | spStart | spMiddle | spEnd => exact absurd rfl unit

/-- Settles O48: the resolved registrations and those left are those there were, without repetition. -/
theorem doneFreesItsSlot : Obligations.DoneFreesItsSlot := by
  unfold Obligations.DoneFreesItsSlot
  intro i s t new x why inv ran appended emitted_done
  obtain rfl := outs_of_exec_next ran appended
  obtain rfl := eq_of_exec_next ran
  have resolved : x ∈ resolvedSerials (effectOf s.cfg i s.regs).outs := mem_resolvedSerials.2 ⟨why, emitted_done⟩
  obtain ⟨-, -, -, unique, -⟩ := id inv
  cases tableEffect inv i with
  | resolves q occupied pend dones =>
    have balance := taken_append_left_perm occupied s.regs.pend
    rw [← dones, ← pend] at balance
    have no_repeats := balance.nodup_iff.2 unique
    have apart := (List.nodup_append'.1 no_repeats)
    obtain ⟨once, -, disjoint⟩ := apart
    refine ⟨balance.subset (List.mem_append_left _ resolved), fun left => disjoint resolved left, ?_⟩
    rw [countP_isDoneOf]
    exact List.count_eq_one_of_mem once resolved
  | withdraws q which pend dones => rw [dones] at resolved; cases resolved
  | resets reset pend dones => rw [dones] at resolved; cases resolved
  | registers cmd timeout p accepted pend dones sent => rw [dones] at resolved; cases resolved

/-! ### At most one resolution -/

theorem inv_next {s : State} (inv : s.Inv) (i : Instr) : (s.next i).Inv := inv_effectOf inv i

/-- An event resolves a registration or leaves it, and makes one only by answering its serial. -/
theorem count_resolved_event {s : State} (inv : s.Inv) (i : Instr) (x : U32) :
    (resolvedSerials (effectOf s.cfg i s.regs).outs).count x + (pendingSerials (s.next i).regs.pend).count x ≤
      (pendingSerials s.regs.pend).count x + (effectOf s.cfg i s.regs).outs.count (.rsp (.sent x)) := by
  cases tableEffect inv i with
  | resolves q occupied pend dones =>
    have balance := (taken_append_left_perm occupied s.regs.pend).count_eq x
    rw [List.count_append, ← dones, ← pend] at balance
    exact balance.le.trans (Nat.le_add_right _ _)
  | withdraws q which pend dones =>
    have fewer := (pendingSerials_releaseAll q s.regs.pend).count_le x
    rw [dones, List.count_nil, Nat.zero_add]
    exact ((congrArg (fun ps => (pendingSerials ps).count x) pend).trans_le fewer).trans (Nat.le_add_right _ _)
  | resets reset pend dones =>
    rw [dones, List.count_nil, Nat.zero_add]
    exact (congrArg (List.count x) pend).trans_le (Nat.zero_le _)
  | registers cmd timeout p accepted pend dones sent =>
    obtain ⟨-, -, -, -, registers⟩ := accepted
    have added := (pendingSerials_register (sendSlot_valid s.regs timeout) (registers rfl).1).count_eq x
    rw [dones, List.count_nil, Nat.zero_add]
    refine ((congrArg (fun ps => (pendingSerials ps).count x) pend).trans added).trans_le ?_
    rw [sendSlot_serial, List.count_cons]
    refine Nat.add_le_add_left ?_ _
    split_ifs with same
    · rw [← eq_of_beq same]
      exact List.one_le_count_iff.2 sent
    · exact Nat.zero_le _

/-- R198: over a run, a serial is resolved at most as often as it was pending or is issued. -/
theorem count_resolved_run (es : List Instr) {s : State} (inv : s.Inv) (x : U32) :
    (resolvedSerials (emitted es s)).count x ≤
      (pendingSerials s.regs.pend).count x + (emitted es s).count (.rsp (.sent x)) := by
  induction es generalizing s with
  | nil => exact Nat.zero_le _
  | cons i es ih =>
    have event := count_resolved_event inv i x
    have rest := ih (inv_next inv i)
    rw [emitted, resolvedSerials_append, List.count_append, List.count_append]
    omega

/-! ### Time and a registration -/

theorem getElem?_releaseAll (q : Slot → Bool) (ps : List Slot) (j : Nat) :
    (releaseAll q ps)[j]? = ps[j]?.map fun p => if q p then p.release else p := List.getElem?_map ..

/-- R187: `n` ticks after it was made, a registration is due exactly if `n` has reached its timeout (R188: no wrap, the
timeout being 32 bits wide). -/
theorem expired_after {q : Slot} (valid : q.valid = true) {now : U64} {n : Nat} (elapsed : now = q.issuedAt + BitVec.ofNat 64 n)
    (bounded : n < 2 ^ 64) : expired now q = true ↔ q.timeout.toNat ≤ n := by
  have difference : (now - q.issuedAt).toNat = n := by
    rw [elapsed, BitVec.add_comm, BitVec.add_sub_cancel, BitVec.toNat_ofNat, Nat.mod_eq_of_lt bounded]
  rw [expired_iff, difference, and_iff_right valid]

theorem lifetime_lt (q : Slot) : max q.timeout.toNat 1 < 2 ^ 64 := by
  have narrow : q.timeout.toNat < 2 ^ 32 := q.timeout.isLt
  omega

theorem next_tick_pend (s : State) :
    (s.next .tick).regs.pend = releaseAll (expired (s.regs.time + 1#64)) s.regs.pend := rfl

theorem elapsed_succ {now issuedAt : U64} {n : Nat} (h : now = issuedAt + BitVec.ofNat 64 n) :
    now + 1#64 = issuedAt + BitVec.ofNat 64 (n + 1) := by
  rw [h, BitVec.ofNat_add, BitVec.add_assoc]

/-- A tick before its time leaves a registration, in its slot. -/
theorem ticks_keep {s : State} {j : Nat} {q : Slot} (held : s.regs.pend[j]? = some q) (valid : q.valid = true)
    (now : s.regs.time = q.issuedAt) {n : Nat} (early : n < max q.timeout.toNat 1) :
    ((ticks n).foldl State.next s).regs.pend[j]? = some q ∧
      ((ticks n).foldl State.next s).regs.time = q.issuedAt + BitVec.ofNat 64 n := by
  have lifetime := lifetime_lt q
  induction n with
  | zero => exact ⟨held, now.trans (BitVec.add_zero _).symm⟩
  | succ n ih =>
    obtain ⟨kept, time⟩ := ih (by omega)
    have not_due : ¬ expired (((ticks n).foldl State.next s).regs.time + 1#64) q = true := by
      rw [expired_after valid (elapsed_succ time) (by omega)]
      omega
    rw [ticks, List.replicate_succ', List.foldl_append, ← ticks]
    refine ⟨?_, elapsed_succ time⟩
    rw [List.foldl_cons, List.foldl_nil, next_tick_pend, getElem?_releaseAll, kept, Option.map_some, if_neg not_due]

theorem emitted_append (es es' : List Instr) (s : State) :
    emitted (es ++ es') s = emitted es s ++ emitted es' (es.foldl State.next s) := by
  induction es generalizing s with
  | nil => rfl
  | cons i es ih => rw [List.cons_append, emitted, emitted, ih, List.append_assoc, List.foldl_cons]

/-- A tick that finds a registration due frees its slot and emits `Timeout`. -/
theorem tick_resolves {s : State} {j : Nat} {q : Slot} (held : s.regs.pend[j]? = some q)
    (due : expired (s.regs.time + 1#64) q = true) :
    (s.next .tick).regs.pend[j]? = some q.release ∧ .done q.serial .timeout ∈ (effectOf s.cfg .tick s.regs).outs := by
  constructor
  · rw [next_tick_pend, getElem?_releaseAll, held, Option.map_some, if_pos due]
  · exact List.mem_map.2 ⟨q, List.mem_filter.2 ⟨List.mem_of_getElem? held, due⟩, rfl⟩

/-- Settles O50: the ticks before the `max(T, 1)`-th leave the registration, and that one finds it due. -/
theorem timeoutFiresAtItsTick : Obligations.TimeoutFiresAtItsTick := by
  unfold Obligations.TimeoutFiresAtItsTick
  intro s j n q held valid now
  refine ⟨_, emitted (ticks n) s, runEvents_eq_foldl (ticks n) s, foldl_next_out (ticks n) s,
    fun early => (ticks_keep held valid now.symm early).1, fun last => ?_⟩
  obtain ⟨m, rfl⟩ : ∃ m, n = m + 1 := ⟨n - 1, by omega⟩
  obtain ⟨kept, time⟩ := ticks_keep held valid now.symm (n := m) (by omega)
  have lifetime := lifetime_lt q
  have due : expired (((ticks m).foldl State.next s).regs.time + 1#64) q = true :=
    (expired_after valid (elapsed_succ time) (by omega)).2 (by omega)
  obtain ⟨freed, done⟩ := tick_resolves kept due
  rw [ticks, List.replicate_succ', List.foldl_append, emitted_append, ← ticks]
  exact ⟨freed, List.mem_append_right _ (List.mem_append_left _ done)⟩

/-! ### Resolved in the end -/

theorem mem_register_of_valid {new p : Slot} {ps : List Slot} (hp : p ∈ ps) (valid : p.valid = true) :
    p ∈ register new ps := by
  induction ps with
  | nil => cases hp
  | cons p' ps ih =>
    unfold register
    split_ifs with occupied
    · rcases List.mem_cons.1 hp with rfl | later
      · exact List.mem_cons_self
      · exact List.mem_cons_of_mem _ (ih later)
    · rcases List.mem_cons.1 hp with rfl | later
      · exact absurd valid occupied
      · exact List.mem_cons_of_mem _ later

theorem mem_register_new {new : Slot} {ps : List Slot} (free : ∃ p ∈ ps, p.valid = false) : new ∈ register new ps := by
  obtain ⟨j, ⟨p, there, -⟩, -, eq⟩ := register_eq_set (new := new) free
  rw [eq]
  exact List.mem_set (List.getElem?_eq_some_iff.1 there).1 new

/-- The events that withdraw a serial's registration without a `DONE`. -/
def Withdraws (x : U32) (i : Instr) : Prop := i = .reset ∨ i = .cancelAll ∨ i = .cancel x

/-- Every other event resolves a registration or leaves its slot as it is. -/
theorem resolved_or_kept {s : State} (inv : s.Inv) {i : Instr} {q : Slot} (held : q ∈ s.regs.pend) (valid : q.valid = true)
    (not_withdrawn : ¬ Withdraws q.serial i) :
    q.serial ∈ resolvedSerials (effectOf s.cfg i s.regs).outs ∨ q ∈ (s.next i).regs.pend := by
  cases tableEffect inv i with
  | resolves test occupied pend dones =>
    rw [dones, State.next, pend]
    by_cases taken : test q = true
    · exact .inl (List.mem_map.2 ⟨q, List.mem_filter.2 ⟨held, taken⟩, rfl⟩)
    · exact .inr (mem_releaseAll_of_not held (Bool.eq_false_of_not_eq_true taken))
  | withdraws test which pend dones =>
    rcases which with rfl | ⟨y, rfl, rfl⟩
    · exact absurd (.inr (.inl rfl)) not_withdrawn
    · rw [State.next, pend]
      refine .inr (mem_releaseAll_of_not held (Bool.eq_false_of_not_eq_true fun taken => not_withdrawn ?_))
      exact .inr (.inr (congrArg Instr.cancel (holds_iff.1 taken).2.symm))
  | resets reset pend dones => exact absurd (.inl reset) not_withdrawn
  | registers cmd timeout p accepted pend dones sent =>
    rw [State.next, pend]
    exact .inr (mem_register_of_valid held valid)

/-- R188 in a run of any events: a registration that nothing withdraws is resolved once its ticks have come. -/
theorem resolved_of_ticks (es : List Instr) {s : State} (inv : s.Inv) {q : Slot} (held : q ∈ s.regs.pend)
    (valid : q.valid = true) {n : Nat} (elapsed : s.regs.time = q.issuedAt + BitVec.ofNat 64 n)
    (early : n < max q.timeout.toNat 1) (enough : max q.timeout.toNat 1 ≤ n + es.count .tick)
    (not_withdrawn : ∀ i ∈ es, ¬ Withdraws q.serial i) : q.serial ∈ resolvedSerials (emitted es s) := by
  have lifetime := lifetime_lt q
  induction es generalizing s n with
  | nil =>
    rw [List.count_nil] at enough
    omega
  | cons i es ih =>
    have not_this : ¬ Withdraws q.serial i := not_withdrawn i List.mem_cons_self
    rw [emitted, resolvedSerials_append, List.mem_append]
    rcases resolved_or_kept inv held valid not_this with resolved | kept
    · exact .inl resolved
    have rest {m : Nat} (elapsed' : (s.next i).regs.time = q.issuedAt + BitVec.ofNat 64 m)
        (early' : m < max q.timeout.toNat 1) (enough' : max q.timeout.toNat 1 ≤ m + es.count .tick) :=
      ih (inv_next inv i) kept elapsed' early' enough' fun j hj => not_withdrawn j (List.mem_cons_of_mem i hj)
    by_cases tick : i = .tick
    · subst tick
      rw [List.count_cons_self] at enough
      rcases Nat.lt_or_ge (n + 1) (max q.timeout.toNat 1) with still_early | due_now
      · exact .inr (rest (elapsed_succ elapsed) still_early (by omega))
      · have due : expired (s.regs.time + 1#64) q = true :=
          (expired_after valid (elapsed_succ elapsed) (by omega)).2 (by omega)
        obtain ⟨j, at_j⟩ := List.mem_iff_getElem?.1 held
        exact .inl (mem_resolvedSerials.2 ⟨.timeout, (tick_resolves at_j due).2⟩)
    · rw [List.count_cons_of_ne tick] at enough
      have not_reset : i ≠ .reset := fun reset => not_this (.inl reset)
      obtain ⟨-, time_kept, -⟩ := dispatcherRegistersHaveTheirWriters i s (s.next i) (exec_eq_next i s) not_reset
      exact .inr (rest ((time_kept tick).trans elapsed) early enough)

/-- Settles O47: after the `SEND` its serial is pending once; it is resolved at most once as it is not issued again, and the
ticks resolve it. -/
theorem registrationResolvesExactlyOnce : Obligations.RegistrationResolvesExactlyOnce := by
  unfold Obligations.RegistrationResolvesExactlyOnce
  intro s cmd timeout p es inv accepted
  refine ⟨_, emitted (.send cmd true timeout p :: es) s, runEvents_eq_foldl _ s, foldl_next_out _ s, fun issued_once => ?_⟩
  have issued : effectOf s.cfg (.send cmd true timeout p) s.regs = issue s.cfg cmd true timeout p s.regs := by
    rcases send_cases s cmd true timeout p with ⟨refused, -⟩ | ⟨-, issued⟩
    · exact absurd accepted refused
    · exact issued
  obtain ⟨-, -, -, -, registers⟩ := accepted
  obtain ⟨free, not_pending⟩ := registers rfl
  have at_most := count_resolved_run (.send cmd true timeout p :: es) inv s.regs.serialNext
  have was_not_pending : (pendingSerials s.regs.pend).count s.regs.serialNext = 0 :=
    List.count_eq_zero.2 fun pending => by
      obtain ⟨q, hq, valid, serial⟩ := mem_pendingSerials.1 pending
      exact not_pending q hq valid serial
  rw [issued_once, was_not_pending, Nat.zero_add] at at_most
  rw [countP_isDoneOf]
  refine ⟨at_most, fun no_reset no_cancel_all no_cancel enough => le_antisymm at_most ?_⟩
  have held : sendSlot timeout s.regs ∈ (s.next (.send cmd true timeout p)).regs.pend := by
    rw [State.next, issued]
    exact mem_register_new free
  have made_now : (s.next (.send cmd true timeout p)).regs.time =
      (sendSlot timeout s.regs).issuedAt + BitVec.ofNat 64 0 := by
    rw [State.next, issued]
    exact (BitVec.add_zero _).symm
  have resolved := resolved_of_ticks es (inv_next inv _) held rfl made_now (by omega) (by rwa [Nat.zero_add])
    fun i hi withdraws => by
      rcases withdraws with rfl | rfl | rfl
      · exact no_reset hi
      · exact no_cancel_all hi
      · exact no_cancel hi
  rw [emitted, resolvedSerials_append, List.count_append]
  exact (List.one_le_count_iff.2 resolved).trans (Nat.le_add_left _ _)

end Sys2Proof.Machine
end
